-- ==== Sys2Proof/Word.lean ====
section
/-! DEFINITION. The words of the block (00_scope R10): a byte, the signed 16-bit aim values read as bit patterns, the
24-bit button mask. The one non-byte integer, OFS, is an `Int` (10_state R29). -/

namespace Sys2Proof

/-- 8 bits, unsigned 0..255; `+` and `-` wrap modulo 256 (00_scope R10). -/
abbrev Byte := BitVec 8

/-- 16 bits, read as a two's-complement integer by `BitVec.toInt` (00_scope R10). -/
abbrev Half := BitVec 16

/-- The 24-bit BUTTONS value and the masks over it (30_encoding R98). -/
abbrev Mask24 := BitVec 24

end Sys2Proof
end

