-- ==== Sys2Proof/Config.lean ====
section
/-! DEFINITION. What an implementation fixes: the parameters of 00_scope R6 to R9 with the defaults the spec gives, the
OPEN substitution table, and the free values of the model. The opaque constants have no body, so nothing can be proved
of their values. -/

namespace Sys2Proof

/-- Evaluation order of the two checksum lines (40_authenticator R124). -/
inductive ChkOrder where
  | chain
  | conventional
deriving DecidableEq, Repr

/-- What a failed handshake does to an open (43_pipeline R224). -/
inductive FailPolicy where
  | proceed
  | abort
deriving DecidableEq, Repr

/-- The parameters of the step relation (00_scope R7 to R9, 10_state R44). They are constants: no step changes them.
State carries them in a read-only field, because `step` has no other argument (log 1), so a statement about every state
holds for every key, every table and every parameter. -/
structure Params where
  /-- KEY, the session key K[0..7] (10_state R20). -/
  key        : Vector Byte 8
  /-- TABLE, the substitution table T[0..319] (10_state R22). -/
  table      : Vector Byte 320
  /-- CHK_ORDER (40_authenticator R124). -/
  chkOrder   : ChkOrder
  /-- AIMY_AT_MIN, aim Y when the raw Y is -32768 (42_deserializer R183). -/
  aimyAtMin  : Half
  /-- HANDSHAKE_FAIL_POLICY (43_pipeline R224). -/
  failPolicy : FailPolicy
deriving DecidableEq, Repr

/-- The contents of TABLE, which the spec leaves OPEN (00_scope R8, log 2): an unknown byte at every index. -/
opaque Config.tableByte : Nat → Byte

/-- A byte of RAW after a delivery whose length is not 15, by draw and index: "not defined" (10_state R24, log 10). -/
opaque Config.undefinedRaw : Nat → Nat → Byte

/-- Whether a dropped frame is logged when DIAG is set, by draw: a log line "may be produced" (43_pipeline R211,
60_exceptions R256, log 11). -/
opaque Config.dropIsLogged : Nat → Bool

/-- KEY_DEFAULT (00_scope R7, log 3). -/
def Config.keyDefault : Vector Byte 8 := #v[0x01, 0x12, 0x6F, 0x32, 0x24, 0x60, 0x17, 0x21]

/-- TABLE as 320 unknown bytes (00_scope R8). -/
def Config.tableOpen : Vector Byte 320 := ⟨⟨(List.range 320).map Config.tableByte⟩, by simp⟩

/-- The parameters at reset: the defaults of 00_scope R7 and R9 (logs 3 to 6). -/
def Config.params : Params where
  key        := Config.keyDefault
  table      := Config.tableOpen
  chkOrder   := .chain
  aimyAtMin  := 0x8000
  failPolicy := .proceed

/-- DIAG at reset: its default (00_scope R9, 10_state R39, log 7). -/
def Config.diag : Bool := false

end Sys2Proof
end

