-- ==== Sys2Proof/Syntax.lean ====
section
/-! DEFINITION. The operations of the block (30_encoding R101): one constructor per row of spec/opcode_table.json. -/

namespace Sys2Proof

/-- The operations. `t` is the whole table byte, operand and selector at once (30_encoding R90, R92). `decbyte i` takes
i in 0..12 (41_decoder R148). -/
inductive Instr where
  /-- SUBP, subtract-pair (41_decoder R145). -/
  | subp (t : Byte)
  /-- ADDP, add-pair (41_decoder R146). -/
  | addp (t : Byte)
  /-- XORP, xor-pair (41_decoder R147). -/
  | xorp (t : Byte)
  /-- LENCHK, the length gate (42_deserializer R180). -/
  | lenchk
  /-- AUTH, the checksum authenticator (40_authenticator R120). -/
  | auth
  /-- OFSINIT, the initial table offset (41_decoder R141). -/
  | ofsinit
  /-- ROUND, one substitution round (41_decoder R144). -/
  | round
  /-- DECBYTE i, three rounds on RAW[i] (41_decoder R148). -/
  | decbyte (i : Fin 13)
  /-- DECODE, the 39 rounds of a frame (41_decoder R140). -/
  | decode
  /-- MAP, field extraction (42_deserializer R181). -/
  | map
  /-- FRAME, the response to one delivered byte sequence (43_pipeline R210). -/
  | frame
  /-- KEYOUT, the handshake (43_pipeline R223). -/
  | keyout
  /-- BTNQ.TRIGGER (42_deserializer R188), and so the ten below. -/
  | btnqTrigger
  | btnqA1
  | btnqA2
  | btnqA3
  | btnqB1
  | btnqB2
  | btnqB3
  | btnqC1
  | btnqC2
  | btnqOutOfRange
  | btnqOneReference
deriving DecidableEq, Repr

end Sys2Proof
end

