-- ==== Sys2Proof/WellFormed.lean ====
section
/-! DEFINITION. Which operations have an encoding: a form SUBP, ADDP or XORP whose operand's low bits do not match the
mnemonic spells no table byte (30_encoding R103, match and mask of R91). Every other operation is well-formed. -/

namespace Sys2Proof

def Instr.wellFormed : Instr → Bool
  | .subp t => t &&& 0x03 == 0x00
  | .addp t => t &&& 0x03 == 0x01
  | .xorp t => t &&& 0x02 == 0x02
  | .lenchk => true
  | .auth => true
  | .ofsinit => true
  | .round => true
  | .decbyte _ => true
  | .decode => true
  | .map => true
  | .frame => true
  | .keyout => true
  | .btnqTrigger => true
  | .btnqA1 => true
  | .btnqA2 => true
  | .btnqA3 => true
  | .btnqB1 => true
  | .btnqB2 => true
  | .btnqB3 => true
  | .btnqC1 => true
  | .btnqC2 => true
  | .btnqOutOfRange => true
  | .btnqOneReference => true

end Sys2Proof
end

