-- ==== Sys2Proof/Decode.lean ====
section
/-! DEFINITION. How an operation is selected (30_encoding R101): by an encoded word, which is one table byte (format TB,
R90) or a 24-bit query mask (format BUTTONS24, R98), or by the sequencer's position for an un-encoded phase. The
decoder is total and rejects by name; the encoder follows it. -/

namespace Sys2Proof

/-- The eleven named buttons (30_encoding R98). -/
inductive Button where
  | trigger | a1 | a2 | a3 | b1 | b2 | b3 | c1 | c2 | outOfRange | oneReference
deriving DecidableEq, Repr

/-- The eleven, in the order 42_deserializer R188 lists them. -/
def Button.all : List Button :=
  [.trigger, .a1, .a2, .a3, .b1, .b2, .b3, .c1, .c2, .outOfRange, .oneReference]

/-- MASK(name) (30_encoding R98, 42_deserializer R188). -/
def Button.mask : Button → Mask24
  | .trigger => 0x002000
  | .a1 => 0x000004
  | .a2 => 0x000002
  | .a3 => 0x800000
  | .b1 => 0x000400
  | .b2 => 0x000200
  | .b3 => 0x400000
  | .c1 => 0x008000
  | .c2 => 0x000008
  | .outOfRange => 0x000800
  | .oneReference => 0x000100

/-- The query of a button. -/
def Button.query : Button → Instr
  | .trigger => .btnqTrigger
  | .a1 => .btnqA1
  | .a2 => .btnqA2
  | .a3 => .btnqA3
  | .b1 => .btnqB1
  | .b2 => .btnqB2
  | .b3 => .btnqB3
  | .c1 => .btnqC1
  | .c2 => .btnqC2
  | .outOfRange => .btnqOutOfRange
  | .oneReference => .btnqOneReference

/-- The un-encoded phases of the sequencer (30_encoding R101). They have no command code. -/
inductive Phase where
  | lenchk | auth | ofsinit | round
  | decbyte (i : Fin 13)
  | decode | map | frame | keyout
deriving DecidableEq, Repr

/-- What selects one operation: the bytes of an encoded word, lowest byte first, or a place in the fixed program. -/
inductive Sel where
  | word (bytes : List Byte)
  | phase (p : Phase)
deriving DecidableEq, Repr

/-- Why a word selects no operation. -/
inductive Reject where
  /-- No byte at all. -/
  | emptyWord
  /-- Neither one byte (a table byte) nor three (a query mask). -/
  | wrongLength (n : Nat)
  /-- A 24-bit value that is not one of the eleven masks. -/
  | unnamedMask (m : Mask24)
deriving DecidableEq, Repr

/-- op = table_byte & 0x03 (30_encoding R90). -/
def selector (t : Byte) : BitVec 2 := t.extractLsb' 0 2

/-- The operation of a table byte (30_encoding R91): op 0 is SUBP, op 1 is ADDP, op 2 and op 3 are XORP. -/
def decodeTableByte (t : Byte) : Instr :=
  if selector t = 0 then .subp t
  else if selector t = 1 then .addp t
  else .xorp t

/-- The three bytes of a 24-bit value as one value, the first byte the least significant (20_memory R67). -/
def maskOfBytes (b0 b1 b2 : Byte) : Mask24 := b2 ++ b1 ++ b0

/-- The bytes of a 24-bit value, least significant first. -/
def bytesOfMask (m : Mask24) : List Byte := [m.extractLsb' 0 8, m.extractLsb' 8 8, m.extractLsb' 16 8]

/-- The query a mask selects (42_deserializer R188: the query is selected by its mask). -/
def decodeMask (m : Mask24) : Except Reject Instr :=
  match Button.all.find? (fun b => b.mask == m) with
  | some b => .ok b.query
  | none => .error (.unnamedMask m)

/-- The decoder of encoded words. -/
def decodeBytes : List Byte → Except Reject Instr
  | [] => .error .emptyWord
  | [t] => .ok (decodeTableByte t)
  | [b0, b1, b2] => decodeMask (maskOfBytes b0 b1 b2)
  | bs => .error (.wrongLength bs.length)

/-- The operation of a phase. -/
def Phase.instr : Phase → Instr
  | .lenchk => .lenchk
  | .auth => .auth
  | .ofsinit => .ofsinit
  | .round => .round
  | .decbyte i => .decbyte i
  | .decode => .decode
  | .map => .map
  | .frame => .frame
  | .keyout => .keyout

/-- The operation a selection stands for. -/
def decodeSel : Sel → Except Reject Instr
  | .word bs => decodeBytes bs
  | .phase p => .ok p.instr

/-- The selection of an operation: its word where it has one, its place in the program where it has none. -/
def encode : Instr → Sel
  | .subp t => .word [t]
  | .addp t => .word [t]
  | .xorp t => .word [t]
  | .lenchk => .phase .lenchk
  | .auth => .phase .auth
  | .ofsinit => .phase .ofsinit
  | .round => .phase .round
  | .decbyte i => .phase (.decbyte i)
  | .decode => .phase .decode
  | .map => .phase .map
  | .frame => .phase .frame
  | .keyout => .phase .keyout
  | .btnqTrigger => .word (bytesOfMask Button.trigger.mask)
  | .btnqA1 => .word (bytesOfMask Button.a1.mask)
  | .btnqA2 => .word (bytesOfMask Button.a2.mask)
  | .btnqA3 => .word (bytesOfMask Button.a3.mask)
  | .btnqB1 => .word (bytesOfMask Button.b1.mask)
  | .btnqB2 => .word (bytesOfMask Button.b2.mask)
  | .btnqB3 => .word (bytesOfMask Button.b3.mask)
  | .btnqC1 => .word (bytesOfMask Button.c1.mask)
  | .btnqC2 => .word (bytesOfMask Button.c2.mask)
  | .btnqOutOfRange => .word (bytesOfMask Button.outOfRange.mask)
  | .btnqOneReference => .word (bytesOfMask Button.oneReference.mask)

/-- The bytes of a word the opcode table numbers with `nbits` bits, bits above `nbits` zero. Up to 8 bits it is a table
byte; 9 to 24 bits it is a BUTTONS24 mask of three bytes (log 15). -/
def wordBytes (nbits w : Nat) : List Byte :=
  let n := (nbits + 7) / 8
  let size := if n = 2 then 3 else n
  (List.range size).map fun k => BitVec.ofNat 8 (w % 2 ^ nbits / 2 ^ (8 * k))

/-- The instruction this decoder reads from a word of the opcode table. -/
def decodeTableWord (nbits w : Nat) : Option Instr :=
  match decodeBytes (wordBytes nbits w) with
  | .ok i => some i
  | .error _ => none

end Sys2Proof
end

