-- ==== Sys2Proof/Machine/State.lean ====
section
/-! DEFINITION. The state of one instance (10_state), plain data, and the state after reset (70_reset R290 to R294). -/

namespace Sys2Proof.Machine

/-- A byte array indexed from 0 (20_memory R60): the bytes that differ from `unlistedByte`, addresses strictly rising. -/
abbrev Memory := List Host.Cell

/-- PSTATE (10_state R37, 30_encoding R104). -/
inductive PState where
  | closed | opening | streaming | suspended | closing
deriving DecidableEq, Repr

/-- LOCK (10_state R38). -/
inductive Lock where
  | free | held
deriving DecidableEq, Repr

/-- REQ, the outstanding inbound request (10_state R41). -/
inductive Req where
  | none | inFlight
deriving DecidableEq, Repr

/-- The six error classes (60_exceptions R250, R255); MalformedLength carries the offending LEN. -/
inductive ErrorClass where
  | malformedLength (len : Nat)
  | authenticationFailure
  | transportTimeout
  | transportShutdown
  | transportTransient
  | resourceExhaustion
deriving DecidableEq, Repr

/-- What an error report to the opener says (60_exceptions R264); the document gives no codes (log 24). -/
inductive Report where
  /-- An open aborted for want of a resource (43_pipeline R216). -/
  | resourceExhaustion
  /-- An open aborted after a failed handshake (43_pipeline R224). -/
  | handshakeFailed
  /-- An arming or re-arming that failed (43_pipeline R219). -/
  | armFailed
  /-- A terminal shutdown of the transport (60_exceptions R250, R264, log 35). -/
  | transportShutdown
deriving DecidableEq, Repr

/-- One line of the diagnostic log, without its text (60_exceptions R256, log 11). -/
inductive LogLine where
  | dropped (e : ErrorClass)
  | transient
  | handshakeFailed
deriving DecidableEq, Repr

/-- GunInputState, the output register file (10_state R36). -/
structure GunInputState where
  aimX    : Half
  aimY    : Half
  saX     : Byte
  saY     : Byte
  sbX     : Byte
  sbY     : Byte
  buttons : Mask24
deriving DecidableEq, Repr

/-- One update: the seven fields and one Boolean control per named button (43_pipeline R213, 42_deserializer R189). -/
structure Update where
  gun      : GunInputState
  controls : List (Button × Bool)
deriving DecidableEq, Repr

/-- What the block puts out (92_eei_decisions D2). -/
inductive Output where
  /-- The write of the handshake payload, K[0] first (43_pipeline R223). -/
  | keyWrite (bytes : List Byte)
  /-- A request handed to the transport: an arm or a re-arm. -/
  | armRequest
  /-- The cancellation of the request in flight. -/
  | cancelRequest
  /-- One atomic update (43_pipeline R213). -/
  | update (u : Update)
  /-- The synchronization marker that follows every update. -/
  | marker
  /-- An error reported upward (60_exceptions R264). -/
  | errorReport (r : Report)
  /-- The acknowledgement of a suspension (43_pipeline R220). -/
  | suspendAck
deriving DecidableEq, Repr

/-- The asynchronous events (60_exceptions R257). -/
inductive Event where
  /-- An inbound completion with data: a byte sequence, whose length is LEN. -/
  | data (bytes : List Byte)
  | timeout
  | shutdown
  | transient
  | openReq
  | closeReq
  | suspendReq
  | resumeReq
deriving DecidableEq, Repr

/-- What the transport and the platform answer to what the block asks of them (43_pipeline R216, R219, R224, log 13):
whether the open obtains its resources, whether the handshake write succeeds, whether an arming succeeds. -/
structure Answers where
  resourceOk : Bool
  sendOk     : Bool
  armOk      : Bool
deriving DecidableEq, Repr

/-- One input: an event with the answers of its handling (60_exceptions R257), or a button query of the consumer
(42_deserializer R189). That a query is an input like the events, in one queue with them, is the model's choice
(log 34). -/
inductive Input where
  | event (e : Event) (a : Answers)
  | query (b : Button)
deriving DecidableEq, Repr

/-- One place of the sequencer's fixed program (30_encoding R101, log 14). -/
inductive SeqOp where
  /-- An operation of the opcode table. -/
  | op (sel : Sel)
  /-- The arming that ends an open (43_pipeline R216). -/
  | openArm
  /-- The completion of the request a suspend cancelled, and the end of the suspend (R220). -/
  | suspendDone
  /-- The completion of the request a close cancelled, and the end of the close (R222 a). -/
  | closeDone
  /-- The re-arming of a resume (R221). -/
  | resumeArm
deriving DecidableEq, Repr

/-- The working registers of authenticator and decoder (10_state sections 3 and 4). -/
structure Work where
  /-- The document's `b` (R27). -/
  sb     : Byte
  /-- The document's `a` (R27). -/
  sa     : Byte
  /-- AUTH_OK, the only condition flag (R28). -/
  authOk : Bool
  /-- OFS, a signed integer that does not wrap (R29). -/
  ofs    : Int
  /-- KIDX, legal values 1..7 (R31). -/
  kidx   : BitVec 3
  /-- BYTE (R32). -/
  byte   : Byte
  /-- I, the byte index (R33). -/
  i      : BitVec 4
  /-- RND, the round counter within a byte (R33). -/
  rnd    : BitVec 2
  /-- TB, the fetched table byte (R34). -/
  tb     : Byte
  /-- RK, the round key (R34). -/
  rk     : Byte
  /-- OP, the selector (R34). -/
  op     : BitVec 2
deriving DecidableEq, Repr

/-- Control and boundary state (10_state sections 6 and 7). -/
structure Pipe where
  pstate        : PState
  lock          : Lock
  diag          : Bool
  req           : Req
  wasStreaming  : Bool
  handshakeSent : Bool
deriving DecidableEq, Repr

/-- The model's own fields (INVENTORY, State). -/
structure Ports where
  /-- The operations of the sequencer's program still to run (log 14). -/
  seq     : List SeqOp
  /-- The inputs not yet taken, oldest first. -/
  inbox   : List Input
  /-- The answers to the block's next requests (log 13). -/
  answers : Answers
  /-- The outputs made so far, oldest first (log 28). -/
  outbox  : List Output
  /-- The diagnostic log, oldest first (log 11). -/
  log     : List LogLine
  /-- The bit the last button query returned (log 16). -/
  answer  : Bool
  /-- The class of the last error raised (log 17). -/
  raised  : Option ErrorClass
  /-- How many times a free value has been drawn (log 12). -/
  draws   : Nat
deriving DecidableEq, Repr

/-- One instance. `par` is constant (10_state R44, log 1). -/
structure State where
  par       : Params
  /-- The byte sequence of the last delivery; LEN is its length (10_state R24). -/
  delivered : List Byte
  /-- RAW[0..14]. -/
  raw       : Memory
  /-- DEC[0..12]. -/
  dec       : Memory
  work      : Work
  gun       : GunInputState
  pipe      : Pipe
  ports     : Ports
deriving DecidableEq, Repr

/-- Why the machine stops. -/
inductive Fault where
  /-- A table read outside 0..319, which the spec leaves without a meaning (00_scope R11). Raised by ROUND and DECBYTE
  run alone with an OFS that no frame reaches; DECODE and FRAME never raise it. Safe. -/
  | tableIndexOutOfRange
deriving DecidableEq, Repr

/-- Why an operation is turned away. -/
inductive Refusal where
  /-- The operation has no meaning in the model yet. Raised by `exec` alone. Safe. -/
  | notModelled (mnemonic : String)
  /-- The selected word encodes no operation (30_encoding R90, R98). Raised by `step`. Safe. -/
  | undecodable (r : Reject)
deriving DecidableEq, Repr

/-- The state after reset. The parameters, PSTATE, LOCK, DIAG, REQ, WAS_STREAMING and HANDSHAKE_SENT as 70_reset R290
and R293 say; the registers the spec leaves unspecified (R291, R292) at the values log 8 names. -/
def State.reset : State where
  par       := Config.params
  delivered := []
  raw       := []
  dec       := []
  work      :=
    { sb := 0, sa := 0, authOk := false, ofs := 0, kidx := 4, byte := 0, i := 0, rnd := 0, tb := 0, rk := 0, op := 0 }
  gun       := { aimX := 0, aimY := 0, saX := 0, saY := 0, sbX := 0, sbY := 0, buttons := 0 }
  pipe      :=
    { pstate := .closed, lock := .free, diag := Config.diag, req := .none, wasStreaming := false,
      handshakeSent := false }
  ports     :=
    { seq := [], inbox := [], answers := { resourceOk := true, sendOk := true, armOk := true }, outbox := [],
      log := [], answer := false, raised := none, draws := 0 }

end Sys2Proof.Machine
end

