-- ==== Sys2Proof/Machine/Flags.lean ====
section
/-! DEFINITION. The checksum accumulators and the one flag of the block, AUTH_OK (10_state R27, R28). `r j` is RAW[j]. -/

namespace Sys2Proof.Machine

/-- SB, the first accumulator (40_authenticator R121), under either evaluation order (R124). -/
def checksumB (order : ChkOrder) (r : Nat → Byte) : Byte :=
  match order with
  | .chain => (((((r 13 ^^^ r 12) + r 11) + r 10) - r 9) - r 8) ^^^ r 7
  | .conventional => (r 13 ^^^ (r 12 + r 11 + r 10 - r 9 - r 8)) ^^^ r 7

/-- SA, the second accumulator (40_authenticator R122), from SB, under either evaluation order (R124). -/
def checksumA (order : ChkOrder) (r : Nat → Byte) (b : Byte) : Byte :=
  match order with
  | .chain => ((((((r 6 ^^^ b) - r 5) - r 4) ^^^ r 3) + r 2) + r 1) - r 0
  | .conventional => (r 6 ^^^ (b - r 5 - r 4)) ^^^ (r 3 + r 2 + r 1 - r 0)

/-- AUTH_OK: SA equals K[7], two unsigned bytes (40_authenticator R123). -/
def verdict (a k7 : Byte) : Bool := a == k7

end Sys2Proof.Machine
end

