-- ==== Sys2Proof/Machine/Operands.lean ====
section
/-! DEFINITION. How an operation reaches its operands: key bytes, table bytes, the index registers' own arithmetic, and
the assembly of multi-byte fields. -/

namespace Sys2Proof.Machine

/-- K[j], j in 0..7 (10_state R20). -/
def keyAt (p : Params) (j : BitVec 3) : Byte := p.key[j.toNat]'(by have := j.isLt; omega)

/-- The eight key bytes in index order (30_encoding R99). -/
def keyBytes (p : Params) : List Byte := p.key.toList

/-- The table index of an offset, OFS + 0x41, an integer (20_memory R61). -/
def tableIndex (ofs : Int) : Int := ofs + 0x41

/-- T[idx], defined only for 0 ≤ idx ≤ 319 (00_scope R11). -/
def tableAt (p : Params) (idx : Int) : Option Byte := if 0 ≤ idx then p.table[idx.toNat]? else none

/-- The rotation of the key index: down by one, 0 becomes 7 (10_state R31). -/
def rotate (k : BitVec 3) : BitVec 3 := if k - 1 = 0 then 7 else k - 1

/-- The 16-bit value of two bytes, the first the low one (20_memory R67). -/
def halfOf (lo hi : Byte) : Half := hi ++ lo

/-- The 24-bit BUTTONS value of DEC[0], DEC[1], DEC[2] (42_deserializer R186). -/
def buttonsOf (d0 d1 d2 : Byte) : Mask24 := d2 ++ d1 ++ d0

/-- Aim Y from the raw value (42_deserializer R183): its negation, but AIMY_AT_MIN at -32768. -/
def aimYOf (p : Params) (rawY : Half) : Half := if rawY = 0x8000 then p.aimyAtMin else -rawY

/-- BTNQ(name) over a BUTTONS value (42_deserializer R188). -/
def queryBit (buttons : Mask24) (b : Button) : Bool := buttons &&& b.mask != 0

end Sys2Proof.Machine
end

