-- ==== Sys2Proof/Machine/Ops.lean ====
section
/-! DEFINITION. The named operations over the buffers, the working registers and the boundary that the meanings share,
with the one operation that takes an exception (60_exceptions) and the re-arm that returns from it. -/

namespace Sys2Proof.Machine

/-! ## Byte arrays -/

/-- What a byte of RAW or DEC that nothing has written reads as (log 9). -/
def unlistedByte : Byte := 0

/-- One byte of an array. -/
def Memory.read : Memory → Nat → Byte
  | [], _ => unlistedByte
  | (k, b) :: m, a => if k = a then b else Memory.read m a

/-- Writes one byte and keeps the canonical form: in its place by address, or not listed at all. -/
def Memory.write : Memory → Nat → Byte → Memory
  | [], a, v => if v = unlistedByte then [] else [(a, v)]
  | (k, b) :: m, a, v =>
    if a < k then (if v = unlistedByte then (k, b) :: m else (a, v) :: (k, b) :: m)
    else if a = k then (if v = unlistedByte then m else (a, v) :: m)
    else (k, b) :: Memory.write m a v

/-- The array that holds the given bytes from address `a` up. -/
def Memory.ofBytesFrom : Nat → List Byte → Memory
  | _, [] => []
  | a, b :: bs =>
    if b = unlistedByte then Memory.ofBytesFrom (a + 1) bs else (a, b) :: Memory.ofBytesFrom (a + 1) bs

/-- The array that holds the given bytes from address 0 up. -/
def Memory.ofBytes (bs : List Byte) : Memory := Memory.ofBytesFrom 0 bs

/-- The canonical form from address `lo` up, below `size`: addresses strictly rising, no entry that an unlisted address
would read as. -/
def Memory.wfFrom (size : Nat) : Nat → Memory → Bool
  | _, [] => true
  | lo, (k, b) :: m => decide (lo ≤ k) && decide (k < size) && b != unlistedByte && Memory.wfFrom size (k + 1) m

/-- The canonical form of an array of `size` bytes. -/
def Memory.wf (size : Nat) (m : Memory) : Bool := Memory.wfFrom size 0 m

/-- RAW has 15 bytes and DEC has 13 (00_scope R6). -/
def rawSize : Nat := 15
def decSize : Nat := 13

/-! ## Sequencing -/

/-- Runs `f` on the next state; a fault or a refusal stays. -/
def andThen (o : Host.Outcome State Fault Refusal) (f : State → Host.Outcome State Fault Refusal) :
    Host.Outcome State Fault Refusal :=
  match o with
  | .next s => f s
  | .fault r => .fault r
  | .refused r => .refused r

/-! ## Frame buffers -/

/-- LEN, the length of the delivered byte sequence (10_state R24). -/
def State.len (s : State) : Nat := s.delivered.length

/-- RAW[0..14] <- bytes[0..14] (43_pipeline R210), for a delivery of 15 bytes. -/
def loadRaw (s : State) : State := { s with raw := Memory.ofBytes s.delivered }

/-- RAW after a delivery of another length: 15 undefined bytes (10_state R24, log 10). -/
def undefinedRaw (s : State) : State :=
  { s with raw := Memory.ofBytes ((List.range rawSize).map (Config.undefinedRaw s.ports.draws)) }

/-- DEC[i] <- v (41_decoder R148). -/
def storeDec (i : Fin 13) (v : Byte) (s : State) : State := { s with dec := s.dec.write i.val v }

/-! ## Authenticator -/

/-- SB, SA and AUTH_OK from RAW[0..13] and K[7] (40_authenticator R120 to R123). -/
def authenticate (s : State) : State :=
  let b := checksumB s.par.chkOrder s.raw.read
  let a := checksumA s.par.chkOrder s.raw.read b
  { s with work.sb := b, work.sa := a, work.authOk := verdict a (keyAt s.par 7) }

/-! ## Decoder -/

/-- The key part of the initial offset (41_decoder R142). -/
def offsetBase (p : Params) : Byte :=
  ((((keyAt p 1 ^^^ keyAt p 2) - keyAt p 3 - keyAt p 4) ^^^ keyAt p 5) + keyAt p 6) - keyAt p 7

/-- OFS0, the initial offset of a salt, 0..255 (41_decoder R141). -/
def initialOffset (p : Params) (salt : Byte) : Byte := (offsetBase p ^^^ salt) + 0x26

/-- OFS <- zext(OFS0), from the salt RAW[14] of the frame at hand (41_decoder R141). -/
def loadOffset (s : State) : State := { s with work.ofs := ((initialOffset s.par (s.raw.read 14)).toNat : Int) }

/-- KIDX <- 4 (41_decoder R143). -/
def loadKeyIndex (s : State) : State := { s with work.kidx := 4 }

/-- I <- i and BYTE <- RAW[i] (41_decoder R148). -/
def loadByte (i : Fin 13) (s : State) : State :=
  { s with work.i := BitVec.ofNat 4 i.val, work.byte := s.raw.read i.val }

/-- The round counter within a byte (10_state R33, log 18). -/
def setRound (r : BitVec 2) (s : State) : State := { s with work.rnd := r }

/-- The first half of a round, once the byte `t` at the decremented offset is fetched (41_decoder R144): OFS, TB, RK from
the old KIDX, the rotation, OP. -/
def latchRound (t : Byte) (s : State) : State :=
  { s with
    work.ofs := s.work.ofs - 1
    work.tb := t
    work.rk := keyAt s.par s.work.kidx
    work.kidx := rotate s.work.kidx
    work.op := selector t }

/-- BYTE <- v. -/
def setByte (v : Byte) (s : State) : State := { s with work.byte := v }

/-- The order in which a frame's bytes are decoded (41_decoder R149). -/
def byteOrder : List (Fin 13) := [12, 11, 10, 9, 8, 7, 6, 5, 4, 3, 2, 1, 0]

/-! ## Mapper and emission -/

/-- The GunInputState of a DEC (42_deserializer R182 to R186). -/
def gunOf (p : Params) (d : Nat → Byte) : GunInputState where
  aimX    := halfOf (d 3) (d 4)
  aimY    := aimYOf p (halfOf (d 5) (d 6))
  saX     := d 9
  saY     := d 10
  sbX     := d 11
  sbY     := d 12
  buttons := buttonsOf (d 0) (d 1) (d 2)

/-- All seven output registers, together (42_deserializer R181). -/
def mapOutputs (s : State) : State := { s with gun := gunOf s.par s.dec.read }

/-- What one update carries (43_pipeline R213, 42_deserializer R189). -/
def updateOf (g : GunInputState) : Update where
  gun      := g
  controls := Button.all.map fun b => (b, queryBit g.buttons b)

/-- emit(S): one update, then one marker (00_scope R11, 43_pipeline R213). -/
def emit (s : State) : State := { s with ports.outbox := s.ports.outbox ++ [.update (updateOf s.gun), .marker] }

/-- The bit a button query returns (42_deserializer R188). -/
def answerQuery (b : Button) (s : State) : State := { s with ports.answer := queryBit s.gun.buttons b }

/-! ## Transport -/

/-- Hands one request to the transport, which grants it. -/
def armGranted (s : State) : State :=
  { s with pipe.req := .inFlight, ports.outbox := s.ports.outbox ++ [.armRequest] }

/-- Hands one request to the transport, which fails it: pipeline-fatal, REQ none, PSTATE Closed, one error upward
(43_pipeline R219, 60_exceptions R263). That such a failure adds no log line, and in the transient class none beside the one
of `raise`, is the model's choice (log 37). -/
def armFailed (s : State) : State :=
  { s with
    pipe.req := .none
    pipe.pstate := .closed
    ports.outbox := s.ports.outbox ++ [.armRequest, .errorReport .armFailed] }

/-- The re-arm (43_pipeline R214), which is also the return from a dropped frame (60_exceptions R262). -/
def rearm (s : State) : State := if s.ports.answers.armOk then armGranted s else armFailed s

/-! ## Exceptions -/

/-- What a drop may put into the diagnostic log: a line only when DIAG is set, and then perhaps (60_exceptions R256). -/
def dropLines (s : State) (e : ErrorClass) : List LogLine :=
  if s.pipe.diag && Config.dropIsLogged s.ports.draws then [.dropped e] else []

/-- The drop of a frame: nothing is emitted and nothing else changes but the log (60_exceptions R251, R252, R261). -/
def dropFrame (e : ErrorClass) (s : State) : State :=
  { s with ports.log := s.ports.log ++ dropLines s e, ports.draws := s.ports.draws + 1 }

/-- Records the class raised (log 17). -/
def noteRaised (e : Option ErrorClass) (s : State) : State := { s with ports.raised := e }

/-- A terminal shutdown: stop re-arming, PSTATE Closed (43_pipeline R218), one error upward, since the block passes the
terminal classes to whoever opened the instance (60_exceptions R264, log 35). -/
def closePipeline (s : State) : State :=
  { s with
    pipe.req := .none
    pipe.pstate := .closed
    ports.outbox := s.ports.outbox ++ [.errorReport .transportShutdown] }

/-- An open given up: PSTATE Closed, the rest of its program dropped, LOCK free, one error to the caller
(43_pipeline R216, R224). -/
def abandonOpen (r : Report) (s : State) : State :=
  { s with
    pipe.pstate := .closed
    pipe.lock := .free
    ports.seq := []
    ports.outbox := s.ports.outbox ++ [.errorReport r] }

/-- Adds one line to the diagnostic log. -/
def addLog (l : LogLine) (s : State) : State := { s with ports.log := s.ports.log ++ [l] }

/-- Taking an exception, class by class (60_exceptions R250 to R253, R261). Nothing is saved and control goes nowhere:
the caller skips what a drop skips. -/
def raise (e : ErrorClass) (s : State) : State :=
  match e with
  | .malformedLength n => noteRaised (some (.malformedLength n)) (dropFrame (.malformedLength n) (undefinedRaw s))
  | .authenticationFailure => noteRaised (some .authenticationFailure) (dropFrame .authenticationFailure s)
  | .transportTimeout => noteRaised (some .transportTimeout) s
  | .transportShutdown => noteRaised (some .transportShutdown) (closePipeline s)
  | .transportTransient => noteRaised (some .transportTransient) (rearm (addLog .transient s))
  | .resourceExhaustion => noteRaised (some .resourceExhaustion) (abandonOpen .resourceExhaustion s)

/-! ## Handshake -/

/-- send(outbound channel, K[0..7]); HANDSHAKE_SENT <- true (43_pipeline R223). -/
def sendKey (s : State) : State :=
  { s with pipe.handshakeSent := true, ports.outbox := s.ports.outbox ++ [.keyWrite (keyBytes s.par)] }

/-- What a failed handshake write does (43_pipeline R224). Under `abort` no log line is added, which is the model's choice:
the rule states the log only for `proceed` (log 36). -/
def handshakeFailed (s : State) : State :=
  match s.par.failPolicy with
  | .proceed => addLog .handshakeFailed s
  | .abort => abandonOpen .handshakeFailed s

end Sys2Proof.Machine
end

