-- ==== Sys2Proof/Machine/Boundary.lean ====
section
/-! DEFINITION. The boundary of the block (43_pipeline sections 2 to 4, 60_exceptions section 2): what each input and
each place of the lifecycle programs does. A lifecycle transition holds LOCK from its request to the end of its program;
the places between are run by later steps. -/

namespace Sys2Proof.Machine

/-- Appends outputs. -/
def putOut (os : List Output) (s : State) : State := { s with ports.outbox := s.ports.outbox ++ os }

/-- Loads the answers that come with an event (log 13). -/
def loadAnswers (a : Answers) (s : State) : State := { s with ports.answers := a }

/-- Whether a completion is processed: PSTATE is Streaming and a request is in flight (43_pipeline R222 d, 60_exceptions
R258). -/
def acceptsCompletion (s : State) : Bool := s.pipe.pstate = .streaming && s.pipe.req = .inFlight

/-- A completion with data: it consumes the request, and FRAME follows (43_pipeline R210, 60_exceptions R258). -/
def onData (bytes : List Byte) (s : State) : State :=
  if acceptsCompletion s then
    { s with delivered := bytes, pipe.req := .none, ports.seq := [.op (.phase .frame)] }
  else s

/-- A timeout status: the request stays in flight, nothing to do (43_pipeline R217). -/
def onTimeout (s : State) : State := if acceptsCompletion s then raise .transportTimeout s else s

/-- A terminal shutdown status (43_pipeline R218). -/
def onShutdown (s : State) : State := if acceptsCompletion s then raise .transportShutdown s else s

/-- Any other error status: the request is consumed, logged, re-armed once (43_pipeline R219). -/
def onTransient (s : State) : State :=
  if acceptsCompletion s then raise .transportTransient { s with pipe.req := .none } else s

/-- A new Opening begins, under LOCK; its handshake has not been attempted yet (10_state R43, log 21). -/
def beginOpening (s : State) : State :=
  { s with pipe.pstate := .opening, pipe.lock := .held, pipe.handshakeSent := false }

/-- `open` (43_pipeline R216): from Closed to Opening; its program is KEYOUT, then the arming. Elsewhere no-op (R222 b). -/
def onOpen (s : State) : State :=
  if s.pipe.pstate = .closed then
    if s.ports.answers.resourceOk then { beginOpening s with ports.seq := [.op (.phase .keyout), .openArm] }
    else raise .resourceExhaustion (beginOpening s)
  else s

/-- The cancellation of the request in flight, if there is one. -/
def cancelRequest (s : State) : State := if s.pipe.req = .inFlight then putOut [.cancelRequest] s else s

/-- `close` (43_pipeline R222 a): from Streaming or Suspended to Closing; cancel, then wait. Elsewhere no-op (R222 b). -/
def onClose (s : State) : State :=
  if s.pipe.pstate = .streaming ∨ s.pipe.pstate = .suspended then
    cancelRequest { s with pipe.pstate := .closing, pipe.lock := .held, ports.seq := [.closeDone] }
  else s

/-- `suspend` (43_pipeline R220, R222 c): records WAS_STREAMING; from Streaming it cancels, then waits. That a suspend
outside Streaming puts out no acknowledgement is the model's choice: R222 c does not say (log 25). -/
def onSuspend (s : State) : State :=
  if s.pipe.pstate = .streaming then
    cancelRequest { s with pipe.wasStreaming := true, pipe.lock := .held, ports.seq := [.suspendDone] }
  else { s with pipe.wasStreaming := false }

/-- `resume` (43_pipeline R221): re-arms only if WAS_STREAMING; outside Suspended no-op (R222 b). -/
def onResume (s : State) : State :=
  if s.pipe.pstate = .suspended ∧ s.pipe.wasStreaming = true then
    { s with pipe.lock := .held, ports.seq := [.resumeArm] }
  else s

/-- What an event does, once taken. -/
def onEvent (e : Event) (s : State) : State :=
  match e with
  | .data bytes => onData bytes s
  | .timeout => onTimeout s
  | .shutdown => onShutdown s
  | .transient => onTransient s
  | .openReq => onOpen s
  | .closeReq => onClose s
  | .suspendReq => onSuspend s
  | .resumeReq => onResume s

/-- The lifecycle requests, which LOCK serializes (43_pipeline R225). -/
def Event.isLifecycle : Event → Bool
  | .data _ => false
  | .timeout => false
  | .shutdown => false
  | .transient => false
  | .openReq => true
  | .closeReq => true
  | .suspendReq => true
  | .resumeReq => true

/-- Takes the oldest input; a lifecycle request waits while LOCK is held (43_pipeline R225, log 26). With no input the
block does nothing (70_reset R294, log 29). A button query runs as one operation, taken like an event and only when the
sequencer is idle: the model's choice (log 34). -/
def takeInput (s : State) : State :=
  match s.ports.inbox with
  | [] => s
  | .event e a :: rest =>
    if e.isLifecycle = true ∧ s.pipe.lock = .held then s
    else onEvent e (loadAnswers a { s with ports.inbox := rest })
  | .query b :: rest => { s with ports.inbox := rest, ports.seq := [.op (.word (bytesOfMask b.mask))] }

/-- The arming that ends an open or a resume: Streaming if it is granted (43_pipeline R216, R221), Closed with one error
upward if not (R219); LOCK free. -/
def finishArm (s : State) : State :=
  if s.ports.answers.armOk then { armGranted s with pipe.pstate := .streaming, pipe.lock := .free }
  else { armFailed s with pipe.lock := .free }

/-- The end of a suspend: the cancelled request's completion has run (43_pipeline R220). -/
def finishSuspend (s : State) : State :=
  putOut [.suspendAck] { s with pipe.req := .none, pipe.pstate := .suspended, pipe.lock := .free }

/-- The end of a close (43_pipeline R222 a). -/
def finishClose (s : State) : State := { s with pipe.req := .none, pipe.pstate := .closed, pipe.lock := .free }

end Sys2Proof.Machine
end

