-- ==== Sys2Proof/Machine/Rounds.lean ====
section
/-! DEFINITION. The round operations (41_decoder section 4): SUBP, ADDP, XORP and ROUND. -/

namespace Sys2Proof.Machine

/-- SUBP (41_decoder R145): BYTE <- BYTE - t - RK, the borrow lost. -/
def execSubp (t : Byte) (s : State) : Host.Outcome State Fault Refusal :=
  .next (setByte ((s.work.byte - t) - s.work.rk) s)

/-- ADDP (41_decoder R146): BYTE <- BYTE + t + RK, the carry lost. -/
def execAddp (t : Byte) (s : State) : Host.Outcome State Fault Refusal :=
  .next (setByte ((s.work.byte + t) + s.work.rk) s)

/-- XORP (41_decoder R147): BYTE <- BYTE ^ t ^ RK. -/
def execXorp (t : Byte) (s : State) : Host.Outcome State Fault Refusal :=
  .next (setByte ((s.work.byte ^^^ t) ^^^ s.work.rk) s)

/-- The dispatch at the end of a round, on OP (41_decoder R144). -/
def dispatchRound (s : State) : Host.Outcome State Fault Refusal :=
  if s.work.op = 0 then execSubp s.work.tb s
  else if s.work.op = 1 then execAddp s.work.tb s
  else execXorp s.work.tb s

/-- ROUND (41_decoder R144): decrement, fetch, read the round key, rotate, dispatch. -/
def execRound (s : State) : Host.Outcome State Fault Refusal :=
  match tableAt s.par (tableIndex (s.work.ofs - 1)) with
  | some t => dispatchRound (latchRound t s)
  | none => .fault .tableIndexOutOfRange

end Sys2Proof.Machine
end

