-- ==== Sys2Proof/Machine/Decoder.lean ====
section
/-! DEFINITION. The rest of the cipher de-obfuscator (41_decoder): OFSINIT, DECBYTE, DECODE. -/

namespace Sys2Proof.Machine

/-- OFSINIT (41_decoder R141). -/
def execOfsinit (s : State) : Host.Outcome State Fault Refusal := .next (loadOffset s)

/-- The rounds of one byte, by their numbers (41_decoder R148, R149). -/
def runRounds : List (BitVec 2) → State → Host.Outcome State Fault Refusal
  | [], s => .next s
  | r :: rs, s => andThen (execRound (setRound r s)) (runRounds rs)

/-- DECBYTE i (41_decoder R148): BYTE <- RAW[i], three rounds, DEC[i] <- BYTE. -/
def execDecbyte (i : Fin 13) (s : State) : Host.Outcome State Fault Refusal :=
  andThen (runRounds [1, 2, 3] (loadByte i s)) fun t => .next (storeDec i t.work.byte t)

/-- DECBYTE for each index of a list, OFS and KIDX carried over (41_decoder R149). -/
def decodeBytesOf : List (Fin 13) → State → Host.Outcome State Fault Refusal
  | [], s => .next s
  | i :: is, s => andThen (execDecbyte i s) (decodeBytesOf is)

/-- DECODE (41_decoder R140): OFSINIT, KIDX <- 4, DECBYTE 12 down to DECBYTE 0. -/
def execDecode (s : State) : Host.Outcome State Fault Refusal :=
  andThen (execOfsinit s) fun t => decodeBytesOf byteOrder (loadKeyIndex t)

end Sys2Proof.Machine
end

