-- ==== Sys2Proof/Machine/Frames.lean ====
section
/-! DEFINITION. The gates and the mapper (40_authenticator, 42_deserializer) and the two sequences of the boundary,
FRAME and KEYOUT (43_pipeline). -/

namespace Sys2Proof.Machine

/-- LENCHK (42_deserializer R180): raises MalformedLength(LEN) when LEN is not 15. -/
def execLenchk (s : State) : Host.Outcome State Fault Refusal :=
  if s.len = rawSize then .next (noteRaised none s) else .next (raise (.malformedLength s.len) s)

/-- AUTH (40_authenticator R120). -/
def execAuth (s : State) : Host.Outcome State Fault Refusal := .next (authenticate s)

/-- MAP (42_deserializer R181). -/
def execMap (s : State) : Host.Outcome State Fault Refusal := .next (mapOutputs s)

/-- What FRAME does with an authentic frame: decode, map, emit, re-arm (43_pipeline R213, R214). -/
def acceptFrame (s : State) : Host.Outcome State Fault Refusal :=
  andThen (execDecode s) fun t => andThen (execMap t) fun u => .next (rearm (emit u))

/-- What FRAME does with a frame of the right length: authenticate, then accept or drop (43_pipeline R210, R212). -/
def gateFrame (s : State) : Host.Outcome State Fault Refusal :=
  andThen (execAuth (loadRaw s)) fun t =>
    if t.work.authOk then acceptFrame t else .next (rearm (raise .authenticationFailure t))

/-- FRAME (43_pipeline R210 to R214): runs only while PSTATE is Streaming (R222 d, 70_reset R307); re-arms on every
path. -/
def execFrame (s : State) : Host.Outcome State Fault Refusal :=
  if s.pipe.pstate = .streaming then
    andThen (execLenchk s) fun t => if t.ports.raised = none then gateFrame t else .next (rearm t)
  else .next s

/-- KEYOUT (43_pipeline R223, R224): sends the key; a failed write is treated by HANDSHAKE_FAIL_POLICY. -/
def execKeyout (s : State) : Host.Outcome State Fault Refusal :=
  .next (if s.ports.answers.sendOk then sendKey s else handshakeFailed (sendKey s))

end Sys2Proof.Machine
end

