-- ==== Sys2Proof/Machine/Queries.lean ====
section
/-! DEFINITION. BTNQ, the eleven button queries (42_deserializer R188). -/

namespace Sys2Proof.Machine

/-- BTNQ of trigger. -/
def execBtnqTrigger (s : State) : Host.Outcome State Fault Refusal := .next (answerQuery .trigger s)

/-- BTNQ of a1. -/
def execBtnqA1 (s : State) : Host.Outcome State Fault Refusal := .next (answerQuery .a1 s)

/-- BTNQ of a2. -/
def execBtnqA2 (s : State) : Host.Outcome State Fault Refusal := .next (answerQuery .a2 s)

/-- BTNQ of a3. -/
def execBtnqA3 (s : State) : Host.Outcome State Fault Refusal := .next (answerQuery .a3 s)

/-- BTNQ of b1. -/
def execBtnqB1 (s : State) : Host.Outcome State Fault Refusal := .next (answerQuery .b1 s)

/-- BTNQ of b2. -/
def execBtnqB2 (s : State) : Host.Outcome State Fault Refusal := .next (answerQuery .b2 s)

/-- BTNQ of b3. -/
def execBtnqB3 (s : State) : Host.Outcome State Fault Refusal := .next (answerQuery .b3 s)

/-- BTNQ of c1. -/
def execBtnqC1 (s : State) : Host.Outcome State Fault Refusal := .next (answerQuery .c1 s)

/-- BTNQ of c2. -/
def execBtnqC2 (s : State) : Host.Outcome State Fault Refusal := .next (answerQuery .c2 s)

/-- BTNQ of outOfRange. -/
def execBtnqOutOfRange (s : State) : Host.Outcome State Fault Refusal := .next (answerQuery .outOfRange s)

/-- BTNQ of oneReference. -/
def execBtnqOneReference (s : State) : Host.Outcome State Fault Refusal := .next (answerQuery .oneReference s)

end Sys2Proof.Machine
end

