-- ==== Sys2Proof/Machine/Dispatch.lean ====
section
/-! DEFINITION. One meaning for each operation. -/

namespace Sys2Proof.Machine

/-- Runs one operation. -/
def exec (i : Instr) (s : State) : Host.Outcome State Fault Refusal :=
  match i with
  | .subp t => Sys2Proof.Machine.execSubp t s
  | .addp t => Sys2Proof.Machine.execAddp t s
  | .xorp t => Sys2Proof.Machine.execXorp t s
  | .lenchk => Sys2Proof.Machine.execLenchk s
  | .auth => Sys2Proof.Machine.execAuth s
  | .ofsinit => Sys2Proof.Machine.execOfsinit s
  | .round => Sys2Proof.Machine.execRound s
  | .decbyte j => Sys2Proof.Machine.execDecbyte j s
  | .decode => Sys2Proof.Machine.execDecode s
  | .map => Sys2Proof.Machine.execMap s
  | .frame => Sys2Proof.Machine.execFrame s
  | .keyout => Sys2Proof.Machine.execKeyout s
  | .btnqTrigger => Sys2Proof.Machine.execBtnqTrigger s
  | .btnqA1 => Sys2Proof.Machine.execBtnqA1 s
  | .btnqA2 => Sys2Proof.Machine.execBtnqA2 s
  | .btnqA3 => Sys2Proof.Machine.execBtnqA3 s
  | .btnqB1 => Sys2Proof.Machine.execBtnqB1 s
  | .btnqB2 => Sys2Proof.Machine.execBtnqB2 s
  | .btnqB3 => Sys2Proof.Machine.execBtnqB3 s
  | .btnqC1 => Sys2Proof.Machine.execBtnqC1 s
  | .btnqC2 => Sys2Proof.Machine.execBtnqC2 s
  | .btnqOutOfRange => Sys2Proof.Machine.execBtnqOutOfRange s
  | .btnqOneReference => Sys2Proof.Machine.execBtnqOneReference s

end Sys2Proof.Machine
end

