-- ==== Sys2Proof/Machine/Fetch.lean ====
section
/-! DEFINITION. Running one place of the sequencer's program: an operation is decoded and executed, a place of a
lifecycle program does its part. -/

namespace Sys2Proof.Machine

/-- Runs one place; the state is the one that already waits at the place after it. -/
def runPlace (p : SeqOp) (s : State) : Host.Outcome State Fault Refusal :=
  match p with
  | .op sel =>
    match decodeSel sel with
    | .ok i => exec i s
    | .error r => .refused (.undecodable r)
  | .openArm => .next (finishArm s)
  | .suspendDone => .next (finishSuspend s)
  | .closeDone => .next (finishClose s)
  | .resumeArm => .next (finishArm s)

/-- The sequencer moved to its next place. -/
def advance (rest : List SeqOp) (s : State) : State := { s with ports.seq := rest }

/-- Puts a selection before the rest of the program, where `step` runs it next. -/
def selectNext (sel : Sel) (s : State) : State := { s with ports.seq := .op sel :: s.ports.seq }

/-- One step of the block: the next place of its program, or, with none left, the oldest input. -/
def runNext (s : State) : Host.Outcome State Fault Refusal :=
  match s.ports.seq with
  | p :: rest => runPlace p (advance rest s)
  | [] => .next (takeInput s)

end Sys2Proof.Machine
end

