-- ==== Sys2Proof/Machine/Step.lean ====
section
/-! DEFINITION. One step of the machine. -/

namespace Sys2Proof.Machine

/-- One step (log 14). -/
def step (s : State) : Host.Outcome State Fault Refusal := runNext s

/-- The state whose next step runs the operation of an opcode-table word: the word is selected before the rest of the
sequencer's program (log 14, log 15). -/
def State.withFetchWord (s : State) (nbits w : Nat) : State := selectNext (.word (wordBytes nbits w)) s

end Sys2Proof.Machine
end

