-- ==== Sys2Proof/Machine/Reference.lean ====
section
/-! DEFINITION. Reference functions of the spec that are not operations of the block: the schedule in closed form
(41_decoder R151), BALANCE (40_authenticator R128) and ENCODE (41_decoder R155). No meaning calls them. -/

namespace Sys2Proof.Machine

/-- What a round with table byte `t` and round key `rk` makes of a byte (41_decoder R145 to R147). -/
def applyTableByte (t rk v : Byte) : Byte :=
  if selector t = 0 then v - t - rk
  else if selector t = 1 then v + t + rk
  else v ^^^ t ^^^ rk

/-- The inverse of `applyTableByte` (41_decoder R155). -/
def undoTableByte (t rk v : Byte) : Byte :=
  if selector t = 0 then v + t + rk
  else if selector t = 1 then v - t - rk
  else v ^^^ t ^^^ rk

/-- The key index of round n, n from 1: (5 - n) mod 7, with 0 standing for 7 (41_decoder R151). -/
def keyIndexAt (n : Nat) : BitVec 3 :=
  if (5 - (n : Int)) % 7 = 0 then 7 else BitVec.ofNat 3 ((5 - (n : Int)) % 7).toNat

/-- The table byte of round n of a frame with initial offset `ofs0`: index OFS0 + 65 - n (41_decoder R151). -/
def tableByteAt (p : Params) (ofs0 : Byte) (n : Nat) : Byte := (tableAt p ((ofs0.toNat : Int) + 65 - n)).getD 0

/-- Round n of a frame, on the byte `v`. -/
def scheduledRound (p : Params) (ofs0 : Byte) (n : Nat) (v : Byte) : Byte :=
  applyTableByte (tableByteAt p ofs0 n) (keyAt p (keyIndexAt n)) v

/-- The first round of byte i (41_decoder R149). -/
def firstRound (i : Nat) : Nat := 3 * (12 - i) + 1

/-- DEC[i] from RAW[i] = v by the closed schedule (41_decoder R151). -/
def decodedByte (p : Params) (ofs0 : Byte) (i : Nat) (v : Byte) : Byte :=
  scheduledRound p ofs0 (firstRound i + 2)
    (scheduledRound p ofs0 (firstRound i + 1) (scheduledRound p ofs0 (firstRound i) v))

/-- Round n undone. -/
def undoneRound (p : Params) (ofs0 : Byte) (n : Nat) (v : Byte) : Byte :=
  undoTableByte (tableByteAt p ofs0 n) (keyAt p (keyIndexAt n)) v

/-- RAW[i] from DEC[i] = v (41_decoder R155): the byte's three rounds undone, last first. -/
def encodedByte (p : Params) (ofs0 : Byte) (i : Nat) (v : Byte) : Byte :=
  undoneRound p ofs0 (firstRound i)
    (undoneRound p ofs0 (firstRound i + 1) (undoneRound p ofs0 (firstRound i + 2) v))

/-- BALANCE, the one authentic RAW[13] for RAW[0..12] under the chain order (40_authenticator R128). -/
def balance (p : Params) (r : Nat → Byte) : Byte :=
  let x := keyAt p 7 + r 0 - r 1 - r 2
  let x := x ^^^ r 3
  let x := x + r 4 + r 5
  let b := x ^^^ r 6
  let y := b ^^^ r 7
  let y := y + r 8 + r 9 - r 10 - r 11
  y ^^^ r 12

/-- ENCODE(DEC, salt), the 15 bytes of a frame (41_decoder R155). -/
def encodeFrame (p : Params) (d : Nat → Byte) (salt : Byte) : List Byte :=
  let payload := (List.range 13).map fun i => encodedByte p (initialOffset p salt) i (d i)
  payload ++ [balance p fun j => payload.getD j 0, salt]

end Sys2Proof.Machine
end

