-- ==== Sys2Proof/Safety.lean ====
section
/-! DEFINITION. What claims call a sound state: the buffers in canonical form, the key index legal, and the boundary
registers in step with the sequencer's position; and the words in which claims say what a step runs, takes and may
write. -/

namespace Sys2Proof

open Machine

/-- RAW and DEC in canonical form, within their sizes. -/
def buffersOk (s : State) : Bool := Memory.wf rawSize s.raw && Memory.wf decSize s.dec

/-- KIDX is 1..7, "never 0" (10_state R31). -/
def keyIndexOk (s : State) : Bool := s.work.kidx != 0

/-- Between transitions: LOCK free, PSTATE one of the three resting states, a request in flight exactly while Streaming
(43_pipeline R216 to R222, 60_exceptions R258). -/
def atRest (p : Pipe) : Bool :=
  match p.lock, p.pstate, p.req with
  | .free, .closed, .none => true
  | .free, .suspended, .none => true
  | .free, .streaming, .inFlight => true
  | _, _, _ => false

/-- The selections that touch only the codec's own registers and cannot fault: every encoded operation, and the phases
but FRAME, KEYOUT and the two that a table index could stop. -/
def codecSel : Sel → Bool
  | .word bs => match decodeBytes bs with | .ok _ => true | .error _ => false
  | .phase .lenchk => true
  | .phase .auth => true
  | .phase .ofsinit => true
  | .phase .round => false
  | .phase (.decbyte _) => false
  | .phase .decode => true
  | .phase .map => true
  | .phase .frame => false
  | .phase .keyout => false

/-- The boundary registers at each place of the sequencer's programs. In an Opening, HANDSHAKE_SENT is clear before KEYOUT
and set after it (10_state R43). -/
def positionOk (seq : List SeqOp) (p : Pipe) : Bool :=
  match seq with
  | [] => atRest p
  | [.op (.phase .frame)] => p.lock == .free && p.pstate == .streaming && p.req == .none
  | [.op (.phase .keyout), .openArm] => p.lock == .held && p.pstate == .opening && p.req == .none && !p.handshakeSent
  | [.openArm] => p.lock == .held && p.pstate == .opening && p.req == .none && p.handshakeSent
  | [.suspendDone] => p.lock == .held && p.pstate == .streaming && p.req == .inFlight && p.wasStreaming
  | [.closeDone] => p.lock == .held && p.pstate == .closing
  | [.resumeArm] => p.lock == .held && p.pstate == .suspended && p.req == .none && p.wasStreaming
  | [.op sel] => codecSel sel && atRest p
  | _ => false

/-- The next step runs this place of a lifecycle program. -/
def runsPlace (s : State) (p : SeqOp) : Prop := ∃ rest, s.ports.seq = p :: rest

/-- The next step runs this operation. -/
def runsOperation (s : State) (i : Instr) : Prop :=
  ∃ sel rest, s.ports.seq = .op sel :: rest ∧ decodeSel sel = .ok i

/-- The next step is the one that finds this event first in the inbox. -/
def takesEvent (s : State) (e : Event) : Prop := s.ports.seq = [] ∧ ∃ a rest, s.ports.inbox = .event e a :: rest

/-- The next step runs a place of a lifecycle program. -/
def runsLifecycle (s : State) : Prop :=
  runsPlace s .openArm ∨ runsPlace s .suspendDone ∨ runsPlace s .closeDone ∨ runsPlace s .resumeArm

/-- From s to u each register of the codec changed only if one of its writers ran (the writers column of 10_state R45; a
FRAME runs them all, a DECODE is its DECBYTEs, a DECBYTE its rounds). RAW changes also under a LENCHK on a wrong length,
which leaves it undefined (log 10); that a DECBYTE writes I and RND is log 18. -/
def codecWrittenOnlyBy (runs : Instr → Prop) (s u : State) : Prop :=
  let decodes := (∃ j, runs (.decbyte j)) ∨ runs .decode ∨ runs .frame
  let rounds := runs .round ∨ decodes
  (u.gun ≠ s.gun → runs .map ∨ runs .frame) ∧
  (u.work.sb ≠ s.work.sb → runs .auth ∨ runs .frame) ∧
  (u.work.sa ≠ s.work.sa → runs .auth ∨ runs .frame) ∧
  (u.work.authOk ≠ s.work.authOk → runs .auth ∨ runs .frame) ∧
  (u.work.ofs ≠ s.work.ofs → runs .ofsinit ∨ rounds) ∧
  (u.work.kidx ≠ s.work.kidx → rounds) ∧
  (u.work.byte ≠ s.work.byte → (∃ t, runs (.subp t) ∨ runs (.addp t) ∨ runs (.xorp t)) ∨ rounds) ∧
  (u.work.i ≠ s.work.i → decodes) ∧
  (u.work.rnd ≠ s.work.rnd → decodes) ∧
  (u.work.tb ≠ s.work.tb → rounds) ∧
  (u.work.rk ≠ s.work.rk → rounds) ∧
  (u.work.op ≠ s.work.op → rounds) ∧
  (u.dec ≠ s.dec → decodes) ∧
  (u.raw ≠ s.raw → runs .frame ∨ (runs .lenchk ∧ s.delivered.length ≠ 15)) ∧
  u.par = s.par

/-- The invariant of the machine. -/
def Sound (s : State) : Prop :=
  buffersOk s = true ∧ keyIndexOk s = true ∧ positionOk s.ports.seq s.pipe = true

end Sys2Proof
end

