-- ==== Sys2Proof/Certificates/Slice0/Obligations.lean ====
section
/-! DEFINITION. The statements for the provers. Each docstring names the rules it formalises; a clause that rests on a
choice of the spec or of the model says so. -/

open Sys2Proof Sys2Proof.Machine

/-! ## Encoding -/

/-- Every well-formed operation is selected by what the encoder writes for it: no bit of a table byte and no bit of a
query mask is dropped (30_encoding sections 1 and 7; that a query word is three bytes, least significant first, is the
model's choice, log 15). -/
def Obligations.EncodedOperationDecodesToItself : Prop :=
  ∀ i : Instr, i.wellFormed = true → decodeSel (encode i) = .ok i

/-- Every selection that decodes is the one the encoder writes, and the operation is well-formed: no operation has two
selections and no selection two operations (30_encoding sections 1 and 7, log 15). -/
def Obligations.DecodedSelectionIsTheEncoders : Prop :=
  ∀ (sel : Sel) (i : Instr), decodeSel sel = .ok i → i.wellFormed = true ∧ encode i = sel

/-- R91. The operation of a table byte: op = 0 is subtract-pair, op = 1 add-pair, op = 2 and 3 xor-pair; as match and
mask, exactly one of the three rows hits every byte. -/
def Obligations.TableByteSelectsOneOperation : Prop :=
  ∀ (t : Byte) (s : State),
    (t.toNat % 4 = 0 → decodeBytes [t] = .ok (.subp t)) ∧
    (t.toNat % 4 = 1 → decodeBytes [t] = .ok (.addp t)) ∧
    (t.toNat % 4 = 2 ∨ t.toNat % 4 = 3 → decodeBytes [t] = .ok (.xorp t)) ∧
    (t &&& 0x03 = 0x00 ↔ decodeBytes [t] = .ok (.subp t)) ∧
    (t &&& 0x03 = 0x01 ↔ decodeBytes [t] = .ok (.addp t)) ∧
    (t &&& 0x02 = 0x02 ↔ decodeBytes [t] = .ok (.xorp t)) ∧
    (decodeBytes [t] = .ok (.subp t) →
      exec (.subp t) s = .next { s with work.byte := (s.work.byte - t) - s.work.rk }) ∧
    (decodeBytes [t] = .ok (.addp t) →
      exec (.addp t) s = .next { s with work.byte := (s.work.byte + t) + s.work.rk }) ∧
    (decodeBytes [t] = .ok (.xorp t) →
      exec (.xorp t) s = .next { s with work.byte := (s.work.byte ^^^ t) ^^^ s.work.rk })

/-- Words written out from the spec's encodings decode to what they stand for: table bytes (30_encoding section 1, written
as section 7 writes them) and query masks (section 4). That a mask is read as a word at all is the model's choice, log 15:
the spec has the masks stand over the BUTTONS value, not over an operation word. -/
def Obligations.WrittenWordsDecode : Prop :=
  decodeTableWord 8 0x10 = some (.subp 0x10) ∧ decodeTableWord 8 0x05 = some (.addp 0x05) ∧
  decodeTableWord 8 0x0A = some (.xorp 0x0A) ∧ decodeTableWord 8 0xFF = some (.xorp 0xFF) ∧
  decodeTableWord 24 0x002000 = some .btnqTrigger ∧ decodeTableWord 24 0x000002 = some .btnqA2 ∧
  decodeTableWord 24 0x800000 = some .btnqA3 ∧ decodeTableWord 24 0x002004 = none

/-! ## The round operations -/

/-- R145. SUBP: BYTE - t - RK modulo 256, for every value of the three, nothing else changed; its word has low bits 00;
its inverse adds. -/
def Obligations.SubpSubtractsPairModulo256 : Prop :=
  ∀ (t : Byte) (s : State),
    (t.toNat % 4 = 0 → decodeBytes [t] = .ok (.subp t)) ∧
    ∃ u, exec (.subp t) s = .next u ∧
      (u.work.byte.toNat : Int) = ((s.work.byte.toNat : Int) - t.toNat - s.work.rk.toNat) % 256 ∧
      u = { s with work.byte := u.work.byte } ∧
      u.work.byte + t + s.work.rk = s.work.byte

/-- R146. ADDP: BYTE + t + RK modulo 256, for every value of the three, nothing else changed; its word has low bits 01;
its inverse subtracts. -/
def Obligations.AddpAddsPairModulo256 : Prop :=
  ∀ (t : Byte) (s : State),
    (t.toNat % 4 = 1 → decodeBytes [t] = .ok (.addp t)) ∧
    ∃ u, exec (.addp t) s = .next u ∧
      u.work.byte.toNat = (s.work.byte.toNat + t.toNat + s.work.rk.toNat) % 256 ∧
      u = { s with work.byte := u.work.byte } ∧
      u.work.byte - t - s.work.rk = s.work.byte

/-- R147. XORP: bit by bit BYTE ^ t ^ RK, nothing else changed; its word has bit 1 set; equal operands are the identity;
it is its own inverse. -/
def Obligations.XorpXorsPair : Prop :=
  ∀ (t : Byte) (s : State),
    (t.toNat % 4 = 2 ∨ t.toNat % 4 = 3 → decodeBytes [t] = .ok (.xorp t)) ∧
    ∃ u, exec (.xorp t) s = .next u ∧
      (∀ k, u.work.byte.getLsbD k = ((s.work.byte.getLsbD k ^^ t.getLsbD k) ^^ s.work.rk.getLsbD k)) ∧
      u = { s with work.byte := u.work.byte } ∧
      (t = s.work.rk → u = s) ∧
      exec (.xorp t) u = .next s

/-- R144. ROUND, for every OFS whose decremented index is inside the table and every legal KIDX: the decrement precedes
the fetch, the key read precedes the rotation, and the fetched byte selects what happens to BYTE. Nothing else
changes. -/
def Obligations.RoundFetchesRotatesAndDispatches : Prop :=
  ∀ s : State, 0 ≤ s.work.ofs - 1 + 0x41 → s.work.ofs - 1 + 0x41 < 320 → s.work.kidx ≠ 0 →
    ∃ u, exec .round s = .next u ∧
      u.work.ofs = s.work.ofs - 1 ∧
      s.par.table[(s.work.ofs - 1 + 0x41).toNat]? = some u.work.tb ∧
      s.par.key[s.work.kidx.toNat]? = some u.work.rk ∧
      u.work.kidx.toNat = (if s.work.kidx.toNat = 1 then 7 else s.work.kidx.toNat - 1) ∧
      u.work.op.toNat = u.work.tb.toNat % 4 ∧
      u.work.byte =
        (if u.work.op = 0 then s.work.byte - u.work.tb - u.work.rk
         else if u.work.op = 1 then s.work.byte + u.work.tb + u.work.rk
         else s.work.byte ^^^ u.work.tb ^^^ u.work.rk) ∧
      u = { s with
        work.ofs := u.work.ofs, work.tb := u.work.tb, work.rk := u.work.rk, work.kidx := u.work.kidx,
        work.op := u.work.op, work.byte := u.work.byte }

/-- A ROUND runs the operation its table byte decodes to: after the fetch it is `exec` of the decoded byte
(41_decoder section 4, 30_encoding section 1). -/
def Obligations.RoundRunsTheDecodedTableByte : Prop :=
  ∀ (s : State) (t : Byte) (i : Instr), tableAt s.par (s.work.ofs + 64) = some t → decodeBytes [t] = .ok i →
    exec .round s = exec i (latchRound t s)

/-- A table read outside 0..319 has no meaning (00_scope section 5, "defined only for 0 ≤ idx ≤ 319"): ROUND stops by
name exactly where its index is outside, DECBYTE exactly where one of its three indices is (the fault is the model's,
log 19). -/
def Obligations.RoundAndDecbyteStopExactlyOutsideTheTable : Prop :=
  ∀ (s : State) (i : Fin 13),
    (exec .round s = .fault .tableIndexOutOfRange ↔ (s.work.ofs + 64 < 0 ∨ 320 ≤ s.work.ofs + 64)) ∧
    (exec (.decbyte i) s = .fault .tableIndexOutOfRange ↔ (s.work.ofs + 62 < 0 ∨ 320 ≤ s.work.ofs + 64))

/-- R148. DECBYTE i: BYTE from RAW[i], three rounds, DEC[i] written; OFS down by 3, KIDX rotated three times. For every i,
every OFS whose three indices are inside the table, and DEC in canonical form. Only DEC[i] and the decoder's working
registers change. (That I and RND change too is 10_state section 4; their values are the model's choice, log 18.) -/
def Obligations.DecbyteRunsThreeRoundsOnOneByte : Prop :=
  ∀ (i : Fin 13) (s : State) (t1 t2 t3 : Byte), Memory.wf decSize s.dec = true →
    tableAt s.par (s.work.ofs + 64) = some t1 → tableAt s.par (s.work.ofs + 63) = some t2 →
    tableAt s.par (s.work.ofs + 62) = some t3 →
    ∃ u, exec (.decbyte i) s = .next u ∧
      u.work.ofs = s.work.ofs - 3 ∧
      u.work.kidx = rotate (rotate (rotate s.work.kidx)) ∧
      u.dec.read i.val =
        applyTableByte t3 (keyAt s.par (rotate (rotate s.work.kidx)))
          (applyTableByte t2 (keyAt s.par (rotate s.work.kidx))
            (applyTableByte t1 (keyAt s.par s.work.kidx) (s.raw.read i.val))) ∧
      (∀ a, a ≠ i.val → u.dec.read a = s.dec.read a) ∧
      u = { s with dec := u.dec, work := u.work } ∧
      u.work.sb = s.work.sb ∧ u.work.sa = s.work.sa ∧ u.work.authOk = s.work.authOk

/-! ## The decoder -/

/-- R141. OFSINIT: the document's lines in order, the sum masked to 8 bits and zero-extended, so 0..255; masking only in
the last line, on wider two's-complement integers (32 bits here), gives the same OFS; only OFS changes. -/
def Obligations.OfsinitComputesInitialOffset : Prop :=
  ∀ s : State,
    let K := fun j : BitVec 3 => keyAt s.par j
    let o1 := K 1 ^^^ K 2
    let o2 := o1 - K 3 - K 4
    let o3 := o2 ^^^ K 5
    let o4 := o3 + K 6 - K 7
    let o5 := o4 ^^^ s.raw.read 14
    ∃ u, exec .ofsinit s = .next u ∧ u.work.ofs = ((o5.toNat + 0x26) % 256 : Nat) ∧
      0 ≤ u.work.ofs ∧ u.work.ofs ≤ 255 ∧
      (let W := fun j : BitVec 3 => (K j).setWidth 32
       let w := ((((W 1 ^^^ W 2) - W 3 - W 4) ^^^ W 5) + W 6 - W 7) ^^^ (s.raw.read 14).setWidth 32
       u.work.ofs = (((w + 0x26) &&& 0xFF).toNat : Int)) ∧
      u = { s with work.ofs := u.work.ofs }

/-- For a fixed key the salt to initial-offset map is a bijection of 0..255 (41_decoder section 2, the spec's own
derivation R142). -/
def Obligations.EverySaltHasItsOwnOffset : Prop :=
  ∀ (s : State) (n : Nat), Memory.wf rawSize s.raw = true → n < 256 →
    ∃! salt : Byte, ∃ u, exec .ofsinit { s with raw := s.raw.write 14 salt } = .next u ∧ u.work.ofs = (n : Int)

/-- DECODE is total: for every state it completes after 39 rounds with OFS = OFS0 - 39 and KIDX = 7, and changes only DEC
and the decoder's working registers (41_decoder sections 1 and 5, the spec's own derivation R152). -/
def Obligations.DecodeAlwaysCompletes : Prop :=
  ∀ s : State, ∃ u, exec .decode s = .next u ∧
    u.work.ofs = ((initialOffset s.par (s.raw.read 14)).toNat : Int) - 39 ∧ u.work.kidx = 7 ∧
    u = { s with dec := u.dec, work := u.work } ∧
    u.work.sb = s.work.sb ∧ u.work.sa = s.work.sa ∧ u.work.authOk = s.work.authOk

/-- DECODE as the sequencer's program: OFSINIT, KIDX <- 4, then DECBYTE 12 down to DECBYTE 0, each an operation of its
own (41_decoder section 1, 30_encoding section 7). -/
def Obligations.DecodeIsItsPhasesInOrder : Prop :=
  ∀ s t : State, exec .ofsinit s = .next t →
    exec .decode s =
      [12, 11, 10, 9, 8, 7, 6, 5, 4, 3, 2, 1, 0].foldl
        (fun o (i : Fin 13) => andThen o fun x => exec (.decbyte i) x) (.next { t with work.kidx := 4 })

/-- The sequential decode equals the closed schedule: DEC[i] is three rounds on RAW[i], round n = 3 * (12 - i) + 1 and the
two after it, round n at table index OFS0 + 65 - n with key byte ((5 - n) mod 7, 0 standing for 7); bytes 13 and up are
not written (41_decoder section 5, the spec's own derivation R151). -/
def Obligations.DecodeFollowsTheClosedSchedule : Prop :=
  ∀ s u : State, Memory.wf decSize s.dec = true → exec .decode s = .next u →
    (∀ i : Fin 13, u.dec.read i.val =
      decodedByte s.par (initialOffset s.par (s.raw.read 14)) i.val (s.raw.read i.val)) ∧
    (∀ a, 13 ≤ a → u.dec.read a = s.dec.read a) ∧ Memory.wf decSize u.dec = true

/-- R153. DECODE depends on RAW[0..12], RAW[14], K[1..7] and T, and on nothing else: not on RAW[13], not on K[0], not on any
earlier frame's registers or DEC. -/
def Obligations.DecodeDependsOnNothingElse : Prop :=
  ∀ s t u v : State, Memory.wf decSize s.dec = true → Memory.wf decSize t.dec = true →
    (∀ j, j < 13 → s.raw.read j = t.raw.read j) → s.raw.read 14 = t.raw.read 14 →
    (∀ j : BitVec 3, j ≠ 0 → keyAt s.par j = keyAt t.par j) → s.par.table = t.par.table →
    exec .decode s = .next u → exec .decode t = .next v → u.dec = v.dec

/-- Changing RAW[i] of a payload byte changes at most DEC[i] (41_decoder section 5, the spec's own derivation R154), and,
each round being a bijection of the byte, it does change it. -/
def Obligations.PayloadByteReachesOneDecodedByte : Prop :=
  ∀ (s u v : State) (i : Fin 13) (x : Byte), Memory.wf rawSize s.raw = true → Memory.wf decSize s.dec = true →
    exec .decode s = .next u → exec .decode { s with raw := s.raw.write i.val x } = .next v →
    (∀ a, a ≠ i.val → v.dec.read a = u.dec.read a) ∧ (v.dec.read i.val = u.dec.read i.val ↔ x = s.raw.read i.val)

/-- Round trip: an encoded frame authenticates under the chain order and decodes to what was encoded, for every payload,
salt, key and table (41_decoder section 6, the spec's own completion R155 of the document's `encode`, R156). -/
def Obligations.EncodedFrameAuthenticatesAndDecodes : Prop :=
  ∀ (s : State) (d : Nat → Byte) (salt : Byte), Memory.wf decSize s.dec = true → s.par.chkOrder = .chain →
    let r : State := { s with raw := Memory.ofBytes (encodeFrame s.par d salt) }
    (encodeFrame s.par d salt).length = 15 ∧
    (∃ u, exec .auth r = .next u ∧ u.work.authOk = true) ∧
    ∃ u, exec .decode r = .next u ∧ ∀ i, i < 13 → u.dec.read i = d i

/-! ## The authenticator -/

/-- AUTH: SB and SA by the document's two lines, under either evaluation order, AUTH_OK <- (SA == K[7]); nothing else
changes (40_authenticator sections 1 and 2; the chain reading of the lines is the spec's decision D3, the comparison as
unsigned bytes D22). -/
def Obligations.AuthFoldsFourteenBytes : Prop :=
  ∀ s : State,
    let r := s.raw.read
    ∃ u, exec .auth s = .next u ∧
      (s.par.chkOrder = .chain →
        u.work.sb = ((r 13 ^^^ r 12) + r 11 + r 10 - r 9 - r 8) ^^^ r 7 ∧
        u.work.sa = (((r 6 ^^^ u.work.sb) - r 5 - r 4) ^^^ r 3) + r 2 + r 1 - r 0) ∧
      (s.par.chkOrder = .conventional →
        u.work.sb = r 13 ^^^ (r 12 + r 11 + r 10 - r 9 - r 8) ^^^ r 7 ∧
        u.work.sa = r 6 ^^^ (u.work.sb - r 5 - r 4) ^^^ (r 3 + r 2 + r 1 - r 0)) ∧
      (u.work.authOk = true ↔ u.work.sa.toNat = (keyAt s.par 7).toNat) ∧
      u = { s with work.sb := u.work.sb, work.sa := u.work.sa, work.authOk := u.work.authOk }

/-- The verdict does not depend on the salt, nor on any key byte but K[7] (40_authenticator section 3, the spec's own
derivation R125). -/
def Obligations.VerdictIgnoresSaltAndOtherKeyBytes : Prop :=
  ∀ s t u v : State, (∀ j, j < 14 → s.raw.read j = t.raw.read j) → keyAt s.par 7 = keyAt t.par 7 →
    s.par.chkOrder = t.par.chkOrder → exec .auth s = .next u → exec .auth t = .next v →
    u.work.sa = v.work.sa ∧ u.work.authOk = v.work.authOk

/-- Any change of exactly one of RAW[0..13] changes SA, under either order, so an authentic frame becomes rejected
(40_authenticator section 3, the spec's own derivation R126). -/
def Obligations.EverySingleByteChangeIsDetected : Prop :=
  ∀ (s u v : State) (j : Nat) (x : Byte), Memory.wf rawSize s.raw = true → j < 14 → x ≠ s.raw.read j →
    exec .auth s = .next u → exec .auth { s with raw := s.raw.write j x } = .next v →
    v.work.sa ≠ u.work.sa ∧ (u.work.authOk = true → v.work.authOk = false)

/-- For fixed RAW[0..12] exactly one RAW[13] is authentic under the chain order, and it is BALANCE (40_authenticator
section 3, the spec's own derivations R127 and R128). -/
def Obligations.BalanceIsTheOneAuthenticByte : Prop :=
  ∀ (s u : State) (x : Byte), Memory.wf rawSize s.raw = true → s.par.chkOrder = .chain →
    exec .auth { s with raw := s.raw.write 13 x } = .next u →
    (u.work.authOk = true ↔ x = balance s.par s.raw.read)

/-! ## The de-serializer -/

/-- LENCHK (42_deserializer section 1): with LEN = 15 it passes and changes nothing the spec names; with any other LEN it raises
MalformedLength(LEN), AUTH, DECODE and MAP do not run and nothing is emitted. (`ports.raised` is the model's latch of the
class raised, log 17; RAW after a wrong length is undefined, log 10.) -/
def Obligations.LenchkPassesExactlyFifteen : Prop :=
  ∀ s : State,
    (s.delivered.length = 15 → exec .lenchk s = .next { s with ports.raised := none }) ∧
    (s.delivered.length ≠ 15 → ∃ u, exec .lenchk s = .next u ∧
      u.ports.raised = some (.malformedLength s.delivered.length) ∧
      u.par = s.par ∧ u.delivered = s.delivered ∧ u.dec = s.dec ∧ u.work = s.work ∧ u.gun = s.gun ∧
      u.pipe = s.pipe ∧ u.ports.outbox = s.ports.outbox ∧ u.ports.seq = s.ports.seq ∧
      u.ports.inbox = s.ports.inbox ∧ u.ports.answer = s.ports.answer ∧
      (u.ports.log = s.ports.log ∨
        s.pipe.diag = true ∧ u.ports.log = s.ports.log ++ [.dropped (.malformedLength s.delivered.length)]))

/-- R182, R184, R185, R186. MAP completes for every DEC: aim X is DEC[4]:DEC[3] as a two's-complement integer, the sticks
are DEC[9..12], BUTTONS is DEC[2]:DEC[1]:DEC[0] with all 24 bits; only the output registers change. -/
def Obligations.MapExtractsAimXSticksAndButtons : Prop :=
  ∀ s : State, ∃ u, exec .map s = .next u ∧
    u.gun.aimX.toInt =
      (if s.dec.read 4 < 0x80 then 256 * ((s.dec.read 4).toNat : Int) + (s.dec.read 3).toNat
       else 256 * ((s.dec.read 4).toNat : Int) + (s.dec.read 3).toNat - 65536) ∧
    u.gun.saX = s.dec.read 9 ∧ u.gun.saY = s.dec.read 10 ∧
    u.gun.sbX = s.dec.read 11 ∧ u.gun.sbY = s.dec.read 12 ∧
    u.gun.buttons.toNat =
      65536 * (s.dec.read 2).toNat + 256 * (s.dec.read 1).toNat + (s.dec.read 0).toNat ∧
    u = { s with gun := u.gun }

/-- MAP's aim Y is the negation of the raw Y for every raw Y but -32768, and the parameter AIMY_AT_MIN there
(42_deserializer section 2; the parameter is the spec's decision D7, and the statement holds for every value of it). -/
def Obligations.MapNegatesAimY : Prop :=
  ∀ s u : State, exec .map s = .next u →
    let rawY := halfOf (s.dec.read 5) (s.dec.read 6)
    (rawY.toInt ≠ -32768 → u.gun.aimY.toInt = -rawY.toInt) ∧
    (rawY.toInt = -32768 → u.gun.aimY = s.par.aimyAtMin)

/-- MAP reads no DEC[7] and no DEC[8], and nothing of earlier outputs (42_deserializer sections 2 and 3, the spec's own
derivations R187 and R190). -/
def Obligations.MapIgnoresBytesSevenAndEight : Prop :=
  ∀ s t u v : State, s.par = t.par → (∀ j, j < 13 → j ≠ 7 → j ≠ 8 → s.dec.read j = t.dec.read j) →
    exec .map s = .next u → exec .map t = .next v → u.gun = v.gun

/-- BTNQ, all eleven: each completes for every state and answers its own bit of BUTTONS; only the model's answer latch
changes (42_deserializer section 3; that a set bit means true is the spec's decision D20, the latch is log 16). -/
def Obligations.ButtonQueriesAnswerTheirBit : Prop :=
  ∀ s : State,
    exec .btnqTrigger s = .next { s with ports.answer := s.gun.buttons.getLsbD 13 } ∧
    exec .btnqA1 s = .next { s with ports.answer := s.gun.buttons.getLsbD 2 } ∧
    exec .btnqA2 s = .next { s with ports.answer := s.gun.buttons.getLsbD 1 } ∧
    exec .btnqA3 s = .next { s with ports.answer := s.gun.buttons.getLsbD 23 } ∧
    exec .btnqB1 s = .next { s with ports.answer := s.gun.buttons.getLsbD 10 } ∧
    exec .btnqB2 s = .next { s with ports.answer := s.gun.buttons.getLsbD 9 } ∧
    exec .btnqB3 s = .next { s with ports.answer := s.gun.buttons.getLsbD 22 } ∧
    exec .btnqC1 s = .next { s with ports.answer := s.gun.buttons.getLsbD 15 } ∧
    exec .btnqC2 s = .next { s with ports.answer := s.gun.buttons.getLsbD 3 } ∧
    exec .btnqOutOfRange s = .next { s with ports.answer := s.gun.buttons.getLsbD 11 } ∧
    exec .btnqOneReference s = .next { s with ports.answer := s.gun.buttons.getLsbD 8 }

/-! ## FRAME -/

/-- R211. A delivery of another length than 15 while Streaming, the re-arm granted: no AUTH, no DECODE, no MAP, nothing
emitted but the re-arm, still Streaming, the output registers as before; a log line only if DIAG is set. -/
def Obligations.FrameDropsWrongLength : Prop :=
  ∀ s : State, s.pipe.pstate = .streaming → s.delivered.length ≠ 15 → s.ports.answers.armOk = true →
    ∃ u, exec .frame s = .next u ∧
      u.par = s.par ∧ u.delivered = s.delivered ∧ u.dec = s.dec ∧ u.work = s.work ∧ u.gun = s.gun ∧
      u.pipe = { s.pipe with req := .inFlight } ∧
      u.ports.outbox = s.ports.outbox ++ [.armRequest] ∧
      u.ports.seq = s.ports.seq ∧ u.ports.inbox = s.ports.inbox ∧ u.ports.answer = s.ports.answer ∧
      (u.ports.log = s.ports.log ∨
        s.pipe.diag = true ∧ u.ports.log = s.ports.log ++ [.dropped (.malformedLength s.delivered.length)])

/-- R212. A frame of 15 bytes that does not authenticate while Streaming, the re-arm granted: DECODE and MAP do not run, DEC
and the output registers keep their values, no update and no marker, still Streaming; a log line only if DIAG is set.
(`verdict (checksumA …)` is AUTH's verdict on the delivered bytes.) -/
def Obligations.FrameDropsUnauthentic : Prop :=
  ∀ s : State, s.pipe.pstate = .streaming → s.delivered.length = 15 → s.ports.answers.armOk = true →
    let r := fun j => s.delivered.getD j 0
    checksumA s.par.chkOrder r (checksumB s.par.chkOrder r) ≠ keyAt s.par 7 →
    ∃ u, exec .frame s = .next u ∧
      u.par = s.par ∧ u.delivered = s.delivered ∧ u.dec = s.dec ∧ u.gun = s.gun ∧
      (∀ j, j < 15 → u.raw.read j = s.delivered.getD j 0) ∧
      u.work = { s.work with sb := u.work.sb, sa := u.work.sa, authOk := false } ∧
      u.pipe = { s.pipe with req := .inFlight } ∧
      u.ports.outbox = s.ports.outbox ++ [.armRequest] ∧
      u.ports.seq = s.ports.seq ∧ u.ports.inbox = s.ports.inbox ∧ u.ports.answer = s.ports.answer ∧
      (u.ports.log = s.ports.log ∨ s.pipe.diag = true ∧ u.ports.log = s.ports.log ++ [.dropped .authenticationFailure])

/-- A frame of 15 bytes that authenticates while Streaming, the re-arm granted: it is decoded by the closed schedule and
mapped, and the block emits exactly one update of all seven fields with the eleven controls, then exactly one marker, then
the re-arm; still Streaming (43_pipeline section 1; one update also when nothing changed is the spec's decision D16). -/
def Obligations.FrameEmitsOneUpdateOfAnAuthenticFrame : Prop :=
  ∀ s : State, s.pipe.pstate = .streaming → s.delivered.length = 15 → s.ports.answers.armOk = true →
    Memory.wf decSize s.dec = true →
    let r := fun j => s.delivered.getD j 0
    let d := fun i => decodedByte s.par (initialOffset s.par (r 14)) i (r i)
    checksumA s.par.chkOrder r (checksumB s.par.chkOrder r) = keyAt s.par 7 →
    ∃ u, exec .frame s = .next u ∧
      u.gun = gunOf s.par d ∧ (∀ i, i < 13 → u.dec.read i = d i) ∧
      (∀ j, j < 15 → u.raw.read j = r j) ∧ u.work.authOk = true ∧
      u.par = s.par ∧ u.delivered = s.delivered ∧
      u.pipe = { s.pipe with req := .inFlight } ∧
      u.ports = { s.ports with
        outbox := s.ports.outbox ++
          [.update { gun := u.gun, controls := Button.all.map fun b => (b, queryBit u.gun.buttons b) }, .marker,
            .armRequest]
        raised := none }

/-- The re-arm: every FRAME while Streaming asks for exactly one re-arm, as its last act but for the report
of a failure, whatever the frame; granted, a request is in flight and PSTATE is Streaming; failed, REQ is none, PSTATE is
Closed and one error goes upward (43_pipeline section 1, 60_exceptions section 4; that a failed re-arm of FRAME is fatal
at once is log 23). -/
def Obligations.FrameRearmsOnEveryPath : Prop :=
  ∀ s : State, s.pipe.pstate = .streaming →
    ∃ u emitted, exec .frame s = .next u ∧
      (emitted = [] ∨ ∃ g, emitted = [.update (updateOf g), .marker]) ∧
      (s.ports.answers.armOk = true →
        u.ports.outbox = s.ports.outbox ++ emitted ++ [.armRequest] ∧
        u.pipe = { s.pipe with req := .inFlight }) ∧
      (s.ports.answers.armOk = false →
        u.ports.outbox = s.ports.outbox ++ emitted ++ [.armRequest, .errorReport .armFailed] ∧
        u.pipe = { s.pipe with req := .none, pstate := .closed })

/-- No state is carried from frame to frame: two instances that differ in RAW, DEC and every working register, in any
values, treat the same delivery alike, in outputs, output registers and boundary state, and after an authentic frame DEC
is the same (10_state section 4, R35; 60_exceptions section 4). -/
def Obligations.FrameForgetsEarlierFrames : Prop :=
  ∀ (s u v : State) (raw dec : Memory) (w : Work), s.delivered.length = 15 → s.pipe.pstate = .streaming →
    Memory.wf decSize s.dec = true → Memory.wf decSize dec = true →
    exec .frame s = .next u → exec .frame { s with raw := raw, dec := dec, work := w } = .next v →
    v.gun = u.gun ∧ v.pipe = u.pipe ∧ v.ports = u.ports ∧ v.raw = u.raw ∧ v.work.authOk = u.work.authOk ∧
      v.work.sb = u.work.sb ∧ v.work.sa = u.work.sa ∧ (u.work.authOk = true → v.dec = u.dec)

/-- FRAME outside Streaming processes nothing (43_pipeline section 2, the spec's decision D17). -/
def Obligations.FrameOutsideStreamingDoesNothing : Prop :=
  ∀ s : State, s.pipe.pstate ≠ .streaming → exec .frame s = .next s

/-! ## The handshake -/

/-- KEYOUT (43_pipeline section 3) sends K[0], K[1], …, K[7], eight bytes, and sets HANDSHAKE_SENT; nothing else changes when the write
succeeds. -/
def Obligations.KeyoutSendsTheEightKeyBytes : Prop :=
  ∀ s : State, s.ports.answers.sendOk = true →
    exec .keyout s = .next
      { s with
        pipe.handshakeSent := true
        ports.outbox := s.ports.outbox ++
          [.keyWrite [keyAt s.par 0, keyAt s.par 1, keyAt s.par 2, keyAt s.par 3, keyAt s.par 4, keyAt s.par 5,
            keyAt s.par 6, keyAt s.par 7]] }

/-- A failed handshake write: under `proceed` it is logged and the program goes on, under `abort` the open is abandoned, one
error is reported and PSTATE is Closed; under either nothing else in the whole state changes (43_pipeline section 3; the two policies are the spec's decision D10; that the failed
write sets HANDSHAKE_SENT is log 21, that KEYOUT selected in any PSTATE does so and closes the pipeline under `abort` is
log 30, that nothing is logged under `abort` is log 36). -/
def Obligations.FailedHandshakeFollowsThePolicy : Prop :=
  ∀ s : State, s.ports.answers.sendOk = false → ∃ u, exec .keyout s = .next u ∧
    (s.par.failPolicy = .proceed →
      u = { s with
        pipe.handshakeSent := true
        ports.log := s.ports.log ++ [.handshakeFailed]
        ports.outbox := s.ports.outbox ++ [.keyWrite (keyBytes s.par)] }) ∧
    (s.par.failPolicy = .abort →
      u = { s with
        pipe.handshakeSent := true, pipe.pstate := .closed, pipe.lock := .free
        ports.seq := []
        ports.outbox := s.ports.outbox ++ [.keyWrite (keyBytes s.par), .errorReport .handshakeFailed] })

/-! ## The step -/

/-- A step runs the operation the sequencer's position selects: it moves past it and runs its meaning; a word that decodes
to nothing is refused by name (30_encoding section 7; the position as a list is the model's, log 14). -/
def Obligations.StepRunsTheSelectedOperation : Prop :=
  ∀ (s : State) (sel : Sel) (rest : List SeqOp), s.ports.seq = .op sel :: rest →
    (∀ i, decodeSel sel = .ok i → step s = exec i { s with ports.seq := rest }) ∧
    (∀ r, decodeSel sel = .error r → step s = .refused (.undecodable r))

/-- With nothing left to run and no input, a step changes nothing (70_reset section 1; that waiting is a step is the
model's choice, log 29). -/
def Obligations.IdleStepChangesNothing : Prop :=
  ∀ s : State, s.ports.seq = [] → s.ports.inbox = [] → step s = .next s

/-- What reset leaves at the boundary and in the key file: PSTATE Closed, LOCK free, REQ none, both bits false, nothing
emitted, nothing to run (70_reset section 1; that Closed is the initial state is the spec's decision D9, the default key
is D5). -/
def Obligations.ResetLeavesTheBoundaryClosed : Prop :=
  State.reset.pipe =
    { pstate := .closed, lock := .free, diag := false, req := .none, wasStreaming := false, handshakeSent := false } ∧
  State.reset.ports.outbox = [] ∧ State.reset.ports.seq = [] ∧
  State.reset.par.key.toList = [0x01, 0x12, 0x6F, 0x32, 0x24, 0x60, 0x17, 0x21]

/-- Reset is sound (the working registers' values at reset are the model's choice, log 8). -/
def Obligations.ResetIsSound : Prop := Sound State.reset

/-- R290. K and T hold their parameters after reset and for ever: no operation and no step changes a parameter. -/
def Obligations.KeyMaterialIsNeverMutated : Prop :=
  State.reset.par.key = Config.keyDefault ∧ State.reset.par.table = Config.tableOpen ∧
  (∀ (i : Instr) (s u : State), exec i s = .next u → u.par = s.par) ∧
  ∀ s u : State, step s = .next u → u.par = s.par

/-- Every step keeps the invariant: RAW and DEC in canonical form, KIDX in 1..7, and LOCK, PSTATE and REQ in step with the
sequencer's position: a request in flight exactly while Streaming at rest, LOCK held exactly inside a lifecycle program
(10_state section 4, 43_pipeline sections 2 and 4, 60_exceptions section 2; rests on the transitions the spec decides in
D17). -/
def Obligations.EveryStepKeepsSound : Prop :=
  ∀ s u : State, Sound s → step s = .next u → Sound u

/-- From a sound state a step always answers a next state: no delivered byte sequence, no request and no answer of the
environment stops the block (60_exceptions section 1, 93_implementation_defined part 1: no input makes the block
hang). -/
def Obligations.SoundStepAlwaysAnswersNext : Prop :=
  ∀ s : State, Sound s → ∃ u, step s = .next u

/-- Outputs are only ever appended, so updates stand in the order in which their frames were taken (20_memory section 7;
that the outputs are a list, from which nothing is taken away, is the model's choice, log 28). -/
def Obligations.OutputsAreOnlyAppended : Prop :=
  ∀ s u : State, step s = .next u → ∃ new, u.ports.outbox = s.ports.outbox ++ new

/-- A step puts out an update only by a FRAME at its position, while Streaming, of a delivery of 15 bytes that
authenticates; it then puts out exactly one update, exactly one marker right after it, the re-arm, and one
error upward if that re-arm fails (40_authenticator section 3, 43_pipeline sections 1 and 2, 60_exceptions sections 3 and 4;
that a FRAME's failed re-arm is fatal at once, with one request, one error and no second attempt, is the model's reading,
log 23; the position as a list is log 14, that update and marker are entries of one list log 28). -/
def Obligations.OnlyAuthenticFramesReachTheOutput : Prop :=
  ∀ (s u : State) (new : List Output) (g : Update), step s = .next u → u.ports.outbox = s.ports.outbox ++ new →
    Output.update g ∈ new →
    (∃ sel rest, s.ports.seq = .op sel :: rest ∧ decodeSel sel = .ok .frame) ∧
    s.pipe.pstate = .streaming ∧ s.delivered.length = 15 ∧
    (let r := fun j => s.delivered.getD j 0
     checksumA s.par.chkOrder r (checksumB s.par.chkOrder r) = keyAt s.par 7) ∧
    (new = [.update g, .marker, .armRequest] ∨
      new = [.update g, .marker, .armRequest, .errorReport .armFailed])

/-- Who writes what (the whole writers column of 10_state section 9, register by register and field by field). First the
operations: each register changes only under the operations that write it, and LEN, DIAG, WAS_STREAMING and the parameters
under none (RAW also under LENCHK on a wrong length, where it is undefined, log 10; PSTATE and LOCK under KEYOUT by the
policy `abort`, the spec's decision D10; I and RND are written by DECBYTE, log 18). Then the steps: RAW, DEC, the working and
the output registers are written by the same operations when a step runs them, so that no input and no place of a lifecycle
program changes one (that they survive every transition is log 32), LEN by a delivery, PSTATE, LOCK and REQ by the operations
just named, by the places of the lifecycle programs (the model's, log 14), by the requests and by the completions,
WAS_STREAMING by a suspend, HANDSHAKE_SENT by KEYOUT and by the open that begins a new Opening (log 21), DIAG by no step
(log 7). -/
def Obligations.EachRegisterHasItsWriters : Prop :=
  (∀ (i : Instr) (s u : State), exec i s = .next u →
    codecWrittenOnlyBy (fun j => i = j) s u ∧
    (u.pipe.pstate ≠ s.pipe.pstate → i = .frame ∨ (i = .keyout ∧ s.par.failPolicy = .abort)) ∧
    (u.pipe.lock ≠ s.pipe.lock → i = .keyout ∧ s.par.failPolicy = .abort) ∧
    (u.pipe.req ≠ s.pipe.req → i = .frame) ∧
    (u.pipe.handshakeSent ≠ s.pipe.handshakeSent → i = .keyout) ∧
    u.pipe.wasStreaming = s.pipe.wasStreaming ∧ u.pipe.diag = s.pipe.diag ∧ u.delivered = s.delivered) ∧
  ∀ s u : State, step s = .next u →
    codecWrittenOnlyBy (runsOperation s) s u ∧
    (u.delivered ≠ s.delivered → ∃ bytes, takesEvent s (.data bytes)) ∧
    (u.pipe.pstate ≠ s.pipe.pstate →
      runsOperation s .frame ∨ runsOperation s .keyout ∨ runsLifecycle s ∨
        takesEvent s .openReq ∨ takesEvent s .closeReq ∨ takesEvent s .shutdown ∨ takesEvent s .transient) ∧
    (u.pipe.lock ≠ s.pipe.lock →
      runsOperation s .keyout ∨ runsLifecycle s ∨
        takesEvent s .openReq ∨ takesEvent s .closeReq ∨ takesEvent s .suspendReq ∨ takesEvent s .resumeReq) ∧
    (u.pipe.req ≠ s.pipe.req →
      runsOperation s .frame ∨ runsLifecycle s ∨
        (∃ bytes, takesEvent s (.data bytes)) ∨ takesEvent s .shutdown ∨ takesEvent s .transient) ∧
    (u.pipe.wasStreaming ≠ s.pipe.wasStreaming → takesEvent s .suspendReq) ∧
    (u.pipe.handshakeSent ≠ s.pipe.handshakeSent → runsOperation s .keyout ∨ takesEvent s .openReq) ∧
    u.pipe.diag = s.pipe.diag

/-! ## The boundary -/

/-- An open from rest, the resource and the arming granted, and the handshake written or, under the policy `proceed`, its
write failed: three steps later the key has been sent, one request is armed and in flight, PSTATE is Streaming and LOCK is
free, and the log has one more line exactly if the write failed; after one step PSTATE is Opening, LOCK is held and
HANDSHAKE_SENT is clear (43_pipeline sections 2 and 3, 70_reset section 2, 10_state section 7; the policy is the spec's
decision D10, HANDSHAKE_SENT as it is read here log 21, the places between the steps log 14, that the buffers and registers
of the codec keep their values log 32). -/
def Obligations.OpenEndsStreaming : Prop :=
  ∀ (s : State) (a : Answers) (rest : List Input), s.ports.seq = [] → s.ports.inbox = .event .openReq a :: rest →
    s.pipe.pstate = .closed → s.pipe.lock = .free → a.resourceOk = true →
    (a.sendOk = true ∨ s.par.failPolicy = .proceed) → a.armOk = true →
    (∃ m, core.run 1 s = .next m ∧
      m.pipe = { s.pipe with pstate := .opening, lock := .held, handshakeSent := false } ∧
      m.ports.outbox = s.ports.outbox) ∧
    ∃ u, core.run 3 s = .next u ∧
      u.pipe = { s.pipe with pstate := .streaming, lock := .free, req := .inFlight, handshakeSent := true } ∧
      u.ports.outbox = s.ports.outbox ++ [.keyWrite (keyBytes s.par), .armRequest] ∧
      u.ports.log = s.ports.log ++ (if a.sendOk then [] else [.handshakeFailed]) ∧
      u.ports.seq = [] ∧ u.ports.inbox = rest ∧ u.gun = s.gun ∧ u.work = s.work ∧ u.raw = s.raw ∧ u.dec = s.dec

/-- An open that obtains no resource, whose handshake fails under `abort`, or whose first arming fails, ends Closed with
LOCK free, no request and one error to the caller (43_pipeline sections 2 and 3; the policy is the spec's decision D10, the
failed first arming D17, U9 and log 23; that the resource is asked for before KEYOUT is the model's, log 22, that a failed
write under `abort` logs nothing log 36, HANDSHAKE_SENT as it is read here log 21, the number of steps log 14, that RAW, DEC,
the working and the output registers keep their values log 32). -/
def Obligations.OpenFailureEndsClosed : Prop :=
  ∀ (s : State) (a : Answers) (rest : List Input), s.ports.seq = [] → s.ports.inbox = .event .openReq a :: rest →
    s.pipe.pstate = .closed → s.pipe.lock = .free → s.pipe.req = .none →
    let codecKept (u : State) : Prop :=
      u.gun = s.gun ∧ u.work = s.work ∧ u.raw = s.raw ∧ u.dec = s.dec ∧ u.delivered = s.delivered
    (a.resourceOk = false → ∃ u, step s = .next u ∧ u.pipe = { s.pipe with handshakeSent := false } ∧
      u.ports.seq = [] ∧ u.ports.outbox = s.ports.outbox ++ [.errorReport .resourceExhaustion] ∧ codecKept u) ∧
    (a.resourceOk = true → a.sendOk = false → s.par.failPolicy = .abort → ∃ u, core.run 2 s = .next u ∧
      u.pipe = { s.pipe with handshakeSent := true } ∧ u.ports.seq = [] ∧ u.ports.log = s.ports.log ∧
      u.ports.outbox = s.ports.outbox ++ [.keyWrite (keyBytes s.par), .errorReport .handshakeFailed] ∧ codecKept u) ∧
    (a.resourceOk = true → (a.sendOk = true ∨ s.par.failPolicy = .proceed) → a.armOk = false →
      ∃ u, core.run 3 s = .next u ∧ u.pipe = { s.pipe with handshakeSent := true } ∧ u.ports.seq = [] ∧
        u.ports.outbox =
          s.ports.outbox ++ [.keyWrite (keyBytes s.par), .armRequest, .errorReport .armFailed] ∧ codecKept u)

/-- A completion with data while Streaming consumes the request and is handed to FRAME, which runs next (43_pipeline
section 1, 60_exceptions sections 2 and 3). -/
def Obligations.DataCompletionRunsFrame : Prop :=
  ∀ (s : State) (bytes : List Byte) (a : Answers) (rest : List Input), s.ports.seq = [] →
    s.ports.inbox = .event (.data bytes) a :: rest → s.pipe.pstate = .streaming → s.pipe.req = .inFlight →
    ∃ m, step s = .next m ∧
      m = { s with
        delivered := bytes, pipe.req := .none, ports.inbox := rest, ports.answers := a
        ports.seq := [.op (.phase .frame)] } ∧
      step m = exec .frame { m with ports.seq := [] }

/-- R217. A timeout while Streaming: PSTATE, REQ and the output registers are unchanged and nothing is emitted. -/
def Obligations.TimeoutChangesNothing : Prop :=
  ∀ (s : State) (a : Answers) (rest : List Input), s.ports.seq = [] → s.ports.inbox = .event .timeout a :: rest →
    s.pipe.pstate = .streaming → s.pipe.req = .inFlight →
    ∃ u, step s = .next u ∧ u.pipe = s.pipe ∧ u.gun = s.gun ∧ u.dec = s.dec ∧ u.raw = s.raw ∧ u.work = s.work ∧
      u.delivered = s.delivered ∧ u.ports.outbox = s.ports.outbox ∧ u.ports.seq = [] ∧ u.ports.inbox = rest ∧
      u.ports.log = s.ports.log

/-- A terminal shutdown while Streaming: REQ none, PSTATE Closed directly, no update, no marker, no re-arm, no frame
processed, one error upward (43_pipeline section 2, 60_exceptions section 4; that a shutdown is among the terminal classes
passed upward is log 35, that RAW, DEC, the working and the output registers keep their values log 32). -/
def Obligations.ShutdownClosesDirectly : Prop :=
  ∀ (s : State) (a : Answers) (rest : List Input), s.ports.seq = [] → s.ports.inbox = .event .shutdown a :: rest →
    s.pipe.pstate = .streaming → s.pipe.req = .inFlight →
    ∃ u, step s = .next u ∧ u.pipe = { s.pipe with req := .none, pstate := .closed } ∧ u.gun = s.gun ∧
      u.dec = s.dec ∧ u.raw = s.raw ∧ u.work = s.work ∧ u.delivered = s.delivered ∧
      u.ports.outbox = s.ports.outbox ++ [.errorReport .transportShutdown] ∧ u.ports.seq = [] ∧ u.ports.inbox = rest

/-- Another transient error while Streaming: logged, one re-arm; granted, PSTATE stays Streaming with a request in flight;
failed, REQ none, PSTATE Closed and one error upward. No frame is processed (43_pipeline section 2; that a failed re-arm adds
no second log line is the model's choice, log 37, that RAW, DEC, the working and the output registers survive into Closed
log 32). -/
def Obligations.TransientErrorRearmsOnce : Prop :=
  ∀ (s : State) (a : Answers) (rest : List Input), s.ports.seq = [] → s.ports.inbox = .event .transient a :: rest →
    s.pipe.pstate = .streaming → s.pipe.req = .inFlight →
    ∃ u, step s = .next u ∧ u.ports.log = s.ports.log ++ [.transient] ∧ u.gun = s.gun ∧ u.dec = s.dec ∧
      u.raw = s.raw ∧ u.work = s.work ∧ u.delivered = s.delivered ∧ u.ports.seq = [] ∧ u.ports.inbox = rest ∧
      (a.armOk = true → u.pipe = s.pipe ∧ u.ports.outbox = s.ports.outbox ++ [.armRequest]) ∧
      (a.armOk = false → u.pipe = { s.pipe with req := .none, pstate := .closed } ∧
        u.ports.outbox = s.ports.outbox ++ [.armRequest, .errorReport .armFailed])

/-- A suspend from Streaming: under LOCK it records WAS_STREAMING, cancels the request and waits; when the cancelled
request's completion has run, REQ is none, PSTATE is Suspended, LOCK is free and the suspension is acknowledged. No frame
is processed and nothing is emitted (43_pipeline section 2; that the cancelled completion processes no frame is the spec's
decision D17; the state seen after the first step is logs 14 and 27, that RAW, DEC, the working and the output registers
survive is log 32). -/
def Obligations.SuspendCancelsThenAcknowledges : Prop :=
  ∀ (s : State) (a : Answers) (rest : List Input), s.ports.seq = [] → s.ports.inbox = .event .suspendReq a :: rest →
    s.pipe.pstate = .streaming → s.pipe.req = .inFlight → s.pipe.lock = .free →
    (∃ m, core.run 1 s = .next m ∧ m.pipe = { s.pipe with wasStreaming := true, lock := .held } ∧
      m.ports.outbox = s.ports.outbox ++ [.cancelRequest]) ∧
    ∃ u, core.run 2 s = .next u ∧
      u.pipe = { s.pipe with wasStreaming := true, req := .none, pstate := .suspended } ∧
      u.ports.outbox = s.ports.outbox ++ [.cancelRequest, .suspendAck] ∧
      u.ports.seq = [] ∧ u.ports.inbox = rest ∧ u.gun = s.gun ∧ u.dec = s.dec ∧ u.raw = s.raw ∧ u.work = s.work

/-- R221. A resume re-arms only if the pipeline was Streaming at suspend time, and never repeats the handshake: with
WAS_STREAMING and the re-arm granted it ends Streaming with a request in flight, without WAS_STREAMING nothing is
armed. -/
def Obligations.ResumeRearmsOnlyIfWasStreaming : Prop :=
  ∀ (s : State) (a : Answers) (rest : List Input), s.ports.seq = [] → s.ports.inbox = .event .resumeReq a :: rest →
    s.pipe.pstate = .suspended → s.pipe.lock = .free →
    (s.pipe.wasStreaming = true → a.armOk = true → ∃ u, core.run 2 s = .next u ∧
      u.pipe = { s.pipe with req := .inFlight, pstate := .streaming } ∧
      u.ports.outbox = s.ports.outbox ++ [.armRequest] ∧ u.ports.seq = [] ∧ u.ports.inbox = rest) ∧
    (s.pipe.wasStreaming = false → step s = .next { s with ports.inbox := rest, ports.answers := a })

/-- A resume whose re-arm fails ends Closed with LOCK free, no request and one error upward (60_exceptions section 4, "a
failed re-arm is the TransportTransient escalation"; that it holds of the resume's re-arm is the model's reading,
log 23; that the output registers survive is log 32). -/
def Obligations.FailedResumeArmEndsClosed : Prop :=
  ∀ (s : State) (a : Answers) (rest : List Input), s.ports.seq = [] → s.ports.inbox = .event .resumeReq a :: rest →
    s.pipe.pstate = .suspended → s.pipe.lock = .free → s.pipe.wasStreaming = true → a.armOk = false →
    ∃ u, core.run 2 s = .next u ∧
      u.pipe = { s.pipe with req := .none, pstate := .closed } ∧
      u.ports.outbox = s.ports.outbox ++ [.armRequest, .errorReport .armFailed] ∧ u.ports.seq = [] ∧
      u.ports.inbox = rest ∧ u.gun = s.gun

/-- A close from Streaming or Suspended passes through Closing under LOCK, cancels a request in flight, and ends Closed with
no request (43_pipeline section 2, the spec's decision D17; the state seen after the first step is logs 14 and 27, that the
output registers survive is log 32). -/
def Obligations.CloseCancelsThenCloses : Prop :=
  ∀ (s : State) (a : Answers) (rest : List Input), s.ports.seq = [] → s.ports.inbox = .event .closeReq a :: rest →
    (s.pipe.pstate = .streaming ∨ s.pipe.pstate = .suspended) → s.pipe.lock = .free →
    let cancel := if s.pipe.req = .inFlight then [Output.cancelRequest] else []
    (∃ m, core.run 1 s = .next m ∧ m.pipe = { s.pipe with pstate := .closing, lock := .held } ∧
      m.ports.outbox = s.ports.outbox ++ cancel) ∧
    ∃ u, core.run 2 s = .next u ∧ u.pipe = { s.pipe with req := .none, pstate := .closed } ∧
      u.ports.outbox = s.ports.outbox ++ cancel ∧ u.ports.seq = [] ∧ u.ports.inbox = rest ∧ u.gun = s.gun

/-- Requests and completions in states that do not pair with them change nothing but what R222 names: open outside Closed,
close in Closed, resume outside Suspended are no-ops, suspend outside Streaming records WAS_STREAMING false, a completion
outside Streaming is not processed (43_pipeline section 2, the spec's decision D17; that a suspend outside Streaming is not
acknowledged is log 25). -/
def Obligations.UnpairedEventsChangeNothing : Prop :=
  ∀ (s : State) (e : Event) (a : Answers) (rest : List Input), s.ports.seq = [] →
    s.ports.inbox = .event e a :: rest → s.pipe.lock = .free →
    let t : State := { s with ports.inbox := rest, ports.answers := a }
    (e = .openReq → s.pipe.pstate ≠ .closed → step s = .next t) ∧
    (e = .closeReq → s.pipe.pstate = .closed → step s = .next t) ∧
    (e = .resumeReq → s.pipe.pstate ≠ .suspended → step s = .next t) ∧
    (e = .suspendReq → s.pipe.pstate ≠ .streaming → step s = .next { t with pipe.wasStreaming := false }) ∧
    (∀ bytes, e = .data bytes → s.pipe.pstate ≠ .streaming → step s = .next t) ∧
    (e = .timeout ∨ e = .shutdown ∨ e = .transient → s.pipe.pstate ≠ .streaming → step s = .next t)

/-- While LOCK is held no lifecycle request is taken, and no step of a lifecycle program takes any input: transitions are
serialized (43_pipeline section 4, which serializes the lifecycle requests; that no other input, a completion or a query,
falls inside a lifecycle program is the model's choice, logs 27 and 31). -/
def Obligations.LifecycleTransitionsAreSerialized : Prop :=
  ∀ s u : State, Sound s → s.pipe.lock = .held → step s = .next u → u.ports.inbox = s.ports.inbox

/-- No frame is processed while Suspended: from a sound suspended state no request is in flight, and no step takes a
delivery, selects a FRAME or emits an update: what it appends to the outputs holds none, whatever the inputs (20_memory section 7, 43_pipeline section 2). -/
def Obligations.SuspendedProcessesNoFrame : Prop :=
  ∀ s u : State, Sound s → s.pipe.pstate = .suspended → step s = .next u →
    u.delivered = s.delivered ∧ s.pipe.req = .none ∧
    (∃ new, u.ports.outbox = s.ports.outbox ++ new ∧ ∀ g, Output.update g ∉ new) ∧
    ¬ ∃ rest, u.ports.seq = .op (.phase .frame) :: rest

/-- A button query of the consumer runs the encoded operation of its mask and answers its bit, two steps after it is taken
(42_deserializer section 3; that a query is an input is the model's, log 34, its encoded selection log 15). -/
def Obligations.ConsumerQueryAnswersItsBit : Prop :=
  ∀ (s : State) (b : Button) (rest : List Input), s.ports.seq = [] → s.ports.inbox = .query b :: rest →
    core.run 2 s = .next
      { s with ports.inbox := rest, ports.answer := queryBit s.gun.buttons b }
end

