-- ==== Sys2Proof/Laws/State.lean ====
section
/-! SUPPORT. One lemma per field of State for every named update, true by `rfl`, so that no later proof unfolds a record
update. -/

namespace Sys2Proof.Laws

open Sys2Proof.Machine

variable (s : State)

/-! ### loadRaw -/

@[simp] theorem loadRaw_par : (loadRaw s).par = s.par := rfl
@[simp] theorem loadRaw_delivered : (loadRaw s).delivered = s.delivered := rfl
@[simp] theorem loadRaw_raw : (loadRaw s).raw = Memory.ofBytes s.delivered := rfl
@[simp] theorem loadRaw_dec : (loadRaw s).dec = s.dec := rfl
@[simp] theorem loadRaw_work : (loadRaw s).work = s.work := rfl
@[simp] theorem loadRaw_gun : (loadRaw s).gun = s.gun := rfl
@[simp] theorem loadRaw_pipe : (loadRaw s).pipe = s.pipe := rfl
@[simp] theorem loadRaw_ports : (loadRaw s).ports = s.ports := rfl

/-! ### undefinedRaw -/

@[simp] theorem undefinedRaw_par : (undefinedRaw s).par = s.par := rfl
@[simp] theorem undefinedRaw_delivered : (undefinedRaw s).delivered = s.delivered := rfl
@[simp] theorem undefinedRaw_raw :
    (undefinedRaw s).raw =
    Memory.ofBytes ((List.range rawSize).map (Config.undefinedRaw s.ports.draws)) := rfl
@[simp] theorem undefinedRaw_dec : (undefinedRaw s).dec = s.dec := rfl
@[simp] theorem undefinedRaw_work : (undefinedRaw s).work = s.work := rfl
@[simp] theorem undefinedRaw_gun : (undefinedRaw s).gun = s.gun := rfl
@[simp] theorem undefinedRaw_pipe : (undefinedRaw s).pipe = s.pipe := rfl
@[simp] theorem undefinedRaw_ports : (undefinedRaw s).ports = s.ports := rfl

/-! ### storeDec -/

@[simp] theorem storeDec_par (i : Fin 13) (v : Byte) : (storeDec i v s).par = s.par := rfl
@[simp] theorem storeDec_delivered (i : Fin 13) (v : Byte) : (storeDec i v s).delivered = s.delivered := rfl
@[simp] theorem storeDec_raw (i : Fin 13) (v : Byte) : (storeDec i v s).raw = s.raw := rfl
@[simp] theorem storeDec_dec (i : Fin 13) (v : Byte) : (storeDec i v s).dec = s.dec.write i.val v := rfl
@[simp] theorem storeDec_work (i : Fin 13) (v : Byte) : (storeDec i v s).work = s.work := rfl
@[simp] theorem storeDec_gun (i : Fin 13) (v : Byte) : (storeDec i v s).gun = s.gun := rfl
@[simp] theorem storeDec_pipe (i : Fin 13) (v : Byte) : (storeDec i v s).pipe = s.pipe := rfl
@[simp] theorem storeDec_ports (i : Fin 13) (v : Byte) : (storeDec i v s).ports = s.ports := rfl

/-! ### authenticate -/

@[simp] theorem authenticate_par : (authenticate s).par = s.par := rfl
@[simp] theorem authenticate_delivered : (authenticate s).delivered = s.delivered := rfl
@[simp] theorem authenticate_raw : (authenticate s).raw = s.raw := rfl
@[simp] theorem authenticate_dec : (authenticate s).dec = s.dec := rfl
@[simp] theorem authenticate_work :
    (authenticate s).work =
    { s.work with
      sb := checksumB s.par.chkOrder s.raw.read
      sa := checksumA s.par.chkOrder s.raw.read (checksumB s.par.chkOrder s.raw.read)
      authOk := verdict (checksumA s.par.chkOrder s.raw.read (checksumB s.par.chkOrder s.raw.read)) (keyAt s.par 7) } := rfl
@[simp] theorem authenticate_gun : (authenticate s).gun = s.gun := rfl
@[simp] theorem authenticate_pipe : (authenticate s).pipe = s.pipe := rfl
@[simp] theorem authenticate_ports : (authenticate s).ports = s.ports := rfl

/-! ### loadOffset -/

@[simp] theorem loadOffset_par : (loadOffset s).par = s.par := rfl
@[simp] theorem loadOffset_delivered : (loadOffset s).delivered = s.delivered := rfl
@[simp] theorem loadOffset_raw : (loadOffset s).raw = s.raw := rfl
@[simp] theorem loadOffset_dec : (loadOffset s).dec = s.dec := rfl
@[simp] theorem loadOffset_work :
    (loadOffset s).work =
    { s.work with ofs := ((initialOffset s.par (s.raw.read 14)).toNat : Int) } := rfl
@[simp] theorem loadOffset_gun : (loadOffset s).gun = s.gun := rfl
@[simp] theorem loadOffset_pipe : (loadOffset s).pipe = s.pipe := rfl
@[simp] theorem loadOffset_ports : (loadOffset s).ports = s.ports := rfl

/-! ### loadKeyIndex -/

@[simp] theorem loadKeyIndex_par : (loadKeyIndex s).par = s.par := rfl
@[simp] theorem loadKeyIndex_delivered : (loadKeyIndex s).delivered = s.delivered := rfl
@[simp] theorem loadKeyIndex_raw : (loadKeyIndex s).raw = s.raw := rfl
@[simp] theorem loadKeyIndex_dec : (loadKeyIndex s).dec = s.dec := rfl
@[simp] theorem loadKeyIndex_work : (loadKeyIndex s).work = { s.work with kidx := 4 } := rfl
@[simp] theorem loadKeyIndex_gun : (loadKeyIndex s).gun = s.gun := rfl
@[simp] theorem loadKeyIndex_pipe : (loadKeyIndex s).pipe = s.pipe := rfl
@[simp] theorem loadKeyIndex_ports : (loadKeyIndex s).ports = s.ports := rfl

/-! ### loadByte -/

@[simp] theorem loadByte_par (i : Fin 13) : (loadByte i s).par = s.par := rfl
@[simp] theorem loadByte_delivered (i : Fin 13) : (loadByte i s).delivered = s.delivered := rfl
@[simp] theorem loadByte_raw (i : Fin 13) : (loadByte i s).raw = s.raw := rfl
@[simp] theorem loadByte_dec (i : Fin 13) : (loadByte i s).dec = s.dec := rfl
@[simp] theorem loadByte_work (i : Fin 13) :
    (loadByte i s).work =
    { s.work with i := BitVec.ofNat 4 i.val, byte := s.raw.read i.val } := rfl
@[simp] theorem loadByte_gun (i : Fin 13) : (loadByte i s).gun = s.gun := rfl
@[simp] theorem loadByte_pipe (i : Fin 13) : (loadByte i s).pipe = s.pipe := rfl
@[simp] theorem loadByte_ports (i : Fin 13) : (loadByte i s).ports = s.ports := rfl

/-! ### setRound -/

@[simp] theorem setRound_par (r : BitVec 2) : (setRound r s).par = s.par := rfl
@[simp] theorem setRound_delivered (r : BitVec 2) : (setRound r s).delivered = s.delivered := rfl
@[simp] theorem setRound_raw (r : BitVec 2) : (setRound r s).raw = s.raw := rfl
@[simp] theorem setRound_dec (r : BitVec 2) : (setRound r s).dec = s.dec := rfl
@[simp] theorem setRound_work (r : BitVec 2) : (setRound r s).work = { s.work with rnd := r } := rfl
@[simp] theorem setRound_gun (r : BitVec 2) : (setRound r s).gun = s.gun := rfl
@[simp] theorem setRound_pipe (r : BitVec 2) : (setRound r s).pipe = s.pipe := rfl
@[simp] theorem setRound_ports (r : BitVec 2) : (setRound r s).ports = s.ports := rfl

/-! ### latchRound -/

@[simp] theorem latchRound_par (t : Byte) : (latchRound t s).par = s.par := rfl
@[simp] theorem latchRound_delivered (t : Byte) : (latchRound t s).delivered = s.delivered := rfl
@[simp] theorem latchRound_raw (t : Byte) : (latchRound t s).raw = s.raw := rfl
@[simp] theorem latchRound_dec (t : Byte) : (latchRound t s).dec = s.dec := rfl
@[simp] theorem latchRound_work (t : Byte) :
    (latchRound t s).work =
    { s.work with
      ofs := s.work.ofs - 1
      tb := t
      rk := keyAt s.par s.work.kidx
      kidx := rotate s.work.kidx
      op := selector t } := rfl
@[simp] theorem latchRound_gun (t : Byte) : (latchRound t s).gun = s.gun := rfl
@[simp] theorem latchRound_pipe (t : Byte) : (latchRound t s).pipe = s.pipe := rfl
@[simp] theorem latchRound_ports (t : Byte) : (latchRound t s).ports = s.ports := rfl

/-! ### setByte -/

@[simp] theorem setByte_par (v : Byte) : (setByte v s).par = s.par := rfl
@[simp] theorem setByte_delivered (v : Byte) : (setByte v s).delivered = s.delivered := rfl
@[simp] theorem setByte_raw (v : Byte) : (setByte v s).raw = s.raw := rfl
@[simp] theorem setByte_dec (v : Byte) : (setByte v s).dec = s.dec := rfl
@[simp] theorem setByte_work (v : Byte) : (setByte v s).work = { s.work with byte := v } := rfl
@[simp] theorem setByte_gun (v : Byte) : (setByte v s).gun = s.gun := rfl
@[simp] theorem setByte_pipe (v : Byte) : (setByte v s).pipe = s.pipe := rfl
@[simp] theorem setByte_ports (v : Byte) : (setByte v s).ports = s.ports := rfl

/-! ### mapOutputs -/

@[simp] theorem mapOutputs_par : (mapOutputs s).par = s.par := rfl
@[simp] theorem mapOutputs_delivered : (mapOutputs s).delivered = s.delivered := rfl
@[simp] theorem mapOutputs_raw : (mapOutputs s).raw = s.raw := rfl
@[simp] theorem mapOutputs_dec : (mapOutputs s).dec = s.dec := rfl
@[simp] theorem mapOutputs_work : (mapOutputs s).work = s.work := rfl
@[simp] theorem mapOutputs_gun : (mapOutputs s).gun = gunOf s.par s.dec.read := rfl
@[simp] theorem mapOutputs_pipe : (mapOutputs s).pipe = s.pipe := rfl
@[simp] theorem mapOutputs_ports : (mapOutputs s).ports = s.ports := rfl

/-! ### emit -/

@[simp] theorem emit_par : (emit s).par = s.par := rfl
@[simp] theorem emit_delivered : (emit s).delivered = s.delivered := rfl
@[simp] theorem emit_raw : (emit s).raw = s.raw := rfl
@[simp] theorem emit_dec : (emit s).dec = s.dec := rfl
@[simp] theorem emit_work : (emit s).work = s.work := rfl
@[simp] theorem emit_gun : (emit s).gun = s.gun := rfl
@[simp] theorem emit_pipe : (emit s).pipe = s.pipe := rfl
@[simp] theorem emit_ports :
    (emit s).ports =
    { s.ports with outbox := s.ports.outbox ++ [.update (updateOf s.gun), .marker] } := rfl

/-! ### answerQuery -/

@[simp] theorem answerQuery_par (b : Button) : (answerQuery b s).par = s.par := rfl
@[simp] theorem answerQuery_delivered (b : Button) : (answerQuery b s).delivered = s.delivered := rfl
@[simp] theorem answerQuery_raw (b : Button) : (answerQuery b s).raw = s.raw := rfl
@[simp] theorem answerQuery_dec (b : Button) : (answerQuery b s).dec = s.dec := rfl
@[simp] theorem answerQuery_work (b : Button) : (answerQuery b s).work = s.work := rfl
@[simp] theorem answerQuery_gun (b : Button) : (answerQuery b s).gun = s.gun := rfl
@[simp] theorem answerQuery_pipe (b : Button) : (answerQuery b s).pipe = s.pipe := rfl
@[simp] theorem answerQuery_ports (b : Button) :
    (answerQuery b s).ports =
    { s.ports with answer := queryBit s.gun.buttons b } := rfl

/-! ### armGranted -/

@[simp] theorem armGranted_par : (armGranted s).par = s.par := rfl
@[simp] theorem armGranted_delivered : (armGranted s).delivered = s.delivered := rfl
@[simp] theorem armGranted_raw : (armGranted s).raw = s.raw := rfl
@[simp] theorem armGranted_dec : (armGranted s).dec = s.dec := rfl
@[simp] theorem armGranted_work : (armGranted s).work = s.work := rfl
@[simp] theorem armGranted_gun : (armGranted s).gun = s.gun := rfl
@[simp] theorem armGranted_pipe : (armGranted s).pipe = { s.pipe with req := .inFlight } := rfl
@[simp] theorem armGranted_ports :
    (armGranted s).ports =
    { s.ports with outbox := s.ports.outbox ++ [.armRequest] } := rfl

/-! ### armFailed -/

@[simp] theorem armFailed_par : (armFailed s).par = s.par := rfl
@[simp] theorem armFailed_delivered : (armFailed s).delivered = s.delivered := rfl
@[simp] theorem armFailed_raw : (armFailed s).raw = s.raw := rfl
@[simp] theorem armFailed_dec : (armFailed s).dec = s.dec := rfl
@[simp] theorem armFailed_work : (armFailed s).work = s.work := rfl
@[simp] theorem armFailed_gun : (armFailed s).gun = s.gun := rfl
@[simp] theorem armFailed_pipe : (armFailed s).pipe = { s.pipe with req := .none, pstate := .closed } := rfl
@[simp] theorem armFailed_ports :
    (armFailed s).ports =
    { s.ports with outbox := s.ports.outbox ++ [.armRequest, .errorReport .armFailed] } := rfl

/-! ### dropFrame -/

@[simp] theorem dropFrame_par (e : ErrorClass) : (dropFrame e s).par = s.par := rfl
@[simp] theorem dropFrame_delivered (e : ErrorClass) : (dropFrame e s).delivered = s.delivered := rfl
@[simp] theorem dropFrame_raw (e : ErrorClass) : (dropFrame e s).raw = s.raw := rfl
@[simp] theorem dropFrame_dec (e : ErrorClass) : (dropFrame e s).dec = s.dec := rfl
@[simp] theorem dropFrame_work (e : ErrorClass) : (dropFrame e s).work = s.work := rfl
@[simp] theorem dropFrame_gun (e : ErrorClass) : (dropFrame e s).gun = s.gun := rfl
@[simp] theorem dropFrame_pipe (e : ErrorClass) : (dropFrame e s).pipe = s.pipe := rfl
@[simp] theorem dropFrame_ports (e : ErrorClass) :
    (dropFrame e s).ports =
    { s.ports with log := s.ports.log ++ dropLines s e, draws := s.ports.draws + 1 } := rfl

/-! ### noteRaised -/

@[simp] theorem noteRaised_par (e : Option ErrorClass) : (noteRaised e s).par = s.par := rfl
@[simp] theorem noteRaised_delivered (e : Option ErrorClass) : (noteRaised e s).delivered = s.delivered := rfl
@[simp] theorem noteRaised_raw (e : Option ErrorClass) : (noteRaised e s).raw = s.raw := rfl
@[simp] theorem noteRaised_dec (e : Option ErrorClass) : (noteRaised e s).dec = s.dec := rfl
@[simp] theorem noteRaised_work (e : Option ErrorClass) : (noteRaised e s).work = s.work := rfl
@[simp] theorem noteRaised_gun (e : Option ErrorClass) : (noteRaised e s).gun = s.gun := rfl
@[simp] theorem noteRaised_pipe (e : Option ErrorClass) : (noteRaised e s).pipe = s.pipe := rfl
@[simp] theorem noteRaised_ports (e : Option ErrorClass) :
    (noteRaised e s).ports =
    { s.ports with raised := e } := rfl

/-! ### closePipeline -/

@[simp] theorem closePipeline_par : (closePipeline s).par = s.par := rfl
@[simp] theorem closePipeline_delivered : (closePipeline s).delivered = s.delivered := rfl
@[simp] theorem closePipeline_raw : (closePipeline s).raw = s.raw := rfl
@[simp] theorem closePipeline_dec : (closePipeline s).dec = s.dec := rfl
@[simp] theorem closePipeline_work : (closePipeline s).work = s.work := rfl
@[simp] theorem closePipeline_gun : (closePipeline s).gun = s.gun := rfl
@[simp] theorem closePipeline_pipe : (closePipeline s).pipe = { s.pipe with req := .none, pstate := .closed } := rfl
@[simp] theorem closePipeline_ports :
    (closePipeline s).ports =
    { s.ports with outbox := s.ports.outbox ++ [.errorReport .transportShutdown] } := rfl

/-! ### abandonOpen -/

@[simp] theorem abandonOpen_par (r : Report) : (abandonOpen r s).par = s.par := rfl
@[simp] theorem abandonOpen_delivered (r : Report) : (abandonOpen r s).delivered = s.delivered := rfl
@[simp] theorem abandonOpen_raw (r : Report) : (abandonOpen r s).raw = s.raw := rfl
@[simp] theorem abandonOpen_dec (r : Report) : (abandonOpen r s).dec = s.dec := rfl
@[simp] theorem abandonOpen_work (r : Report) : (abandonOpen r s).work = s.work := rfl
@[simp] theorem abandonOpen_gun (r : Report) : (abandonOpen r s).gun = s.gun := rfl
@[simp] theorem abandonOpen_pipe (r : Report) :
    (abandonOpen r s).pipe =
    { s.pipe with pstate := .closed, lock := .free } := rfl
@[simp] theorem abandonOpen_ports (r : Report) :
    (abandonOpen r s).ports =
    { s.ports with seq := [], outbox := s.ports.outbox ++ [.errorReport r] } := rfl

/-! ### addLog -/

@[simp] theorem addLog_par (l : LogLine) : (addLog l s).par = s.par := rfl
@[simp] theorem addLog_delivered (l : LogLine) : (addLog l s).delivered = s.delivered := rfl
@[simp] theorem addLog_raw (l : LogLine) : (addLog l s).raw = s.raw := rfl
@[simp] theorem addLog_dec (l : LogLine) : (addLog l s).dec = s.dec := rfl
@[simp] theorem addLog_work (l : LogLine) : (addLog l s).work = s.work := rfl
@[simp] theorem addLog_gun (l : LogLine) : (addLog l s).gun = s.gun := rfl
@[simp] theorem addLog_pipe (l : LogLine) : (addLog l s).pipe = s.pipe := rfl
@[simp] theorem addLog_ports (l : LogLine) : (addLog l s).ports = { s.ports with log := s.ports.log ++ [l] } := rfl

/-! ### sendKey -/

@[simp] theorem sendKey_par : (sendKey s).par = s.par := rfl
@[simp] theorem sendKey_delivered : (sendKey s).delivered = s.delivered := rfl
@[simp] theorem sendKey_raw : (sendKey s).raw = s.raw := rfl
@[simp] theorem sendKey_dec : (sendKey s).dec = s.dec := rfl
@[simp] theorem sendKey_work : (sendKey s).work = s.work := rfl
@[simp] theorem sendKey_gun : (sendKey s).gun = s.gun := rfl
@[simp] theorem sendKey_pipe : (sendKey s).pipe = { s.pipe with handshakeSent := true } := rfl
@[simp] theorem sendKey_ports :
    (sendKey s).ports =
    { s.ports with outbox := s.ports.outbox ++ [.keyWrite (keyBytes s.par)] } := rfl

/-! ### putOut -/

@[simp] theorem putOut_par (os : List Output) : (putOut os s).par = s.par := rfl
@[simp] theorem putOut_delivered (os : List Output) : (putOut os s).delivered = s.delivered := rfl
@[simp] theorem putOut_raw (os : List Output) : (putOut os s).raw = s.raw := rfl
@[simp] theorem putOut_dec (os : List Output) : (putOut os s).dec = s.dec := rfl
@[simp] theorem putOut_work (os : List Output) : (putOut os s).work = s.work := rfl
@[simp] theorem putOut_gun (os : List Output) : (putOut os s).gun = s.gun := rfl
@[simp] theorem putOut_pipe (os : List Output) : (putOut os s).pipe = s.pipe := rfl
@[simp] theorem putOut_ports (os : List Output) :
    (putOut os s).ports =
    { s.ports with outbox := s.ports.outbox ++ os } := rfl

/-! ### loadAnswers -/

@[simp] theorem loadAnswers_par (a : Answers) : (loadAnswers a s).par = s.par := rfl
@[simp] theorem loadAnswers_delivered (a : Answers) : (loadAnswers a s).delivered = s.delivered := rfl
@[simp] theorem loadAnswers_raw (a : Answers) : (loadAnswers a s).raw = s.raw := rfl
@[simp] theorem loadAnswers_dec (a : Answers) : (loadAnswers a s).dec = s.dec := rfl
@[simp] theorem loadAnswers_work (a : Answers) : (loadAnswers a s).work = s.work := rfl
@[simp] theorem loadAnswers_gun (a : Answers) : (loadAnswers a s).gun = s.gun := rfl
@[simp] theorem loadAnswers_pipe (a : Answers) : (loadAnswers a s).pipe = s.pipe := rfl
@[simp] theorem loadAnswers_ports (a : Answers) : (loadAnswers a s).ports = { s.ports with answers := a } := rfl

/-! ### beginOpening -/

@[simp] theorem beginOpening_par : (beginOpening s).par = s.par := rfl
@[simp] theorem beginOpening_delivered : (beginOpening s).delivered = s.delivered := rfl
@[simp] theorem beginOpening_raw : (beginOpening s).raw = s.raw := rfl
@[simp] theorem beginOpening_dec : (beginOpening s).dec = s.dec := rfl
@[simp] theorem beginOpening_work : (beginOpening s).work = s.work := rfl
@[simp] theorem beginOpening_gun : (beginOpening s).gun = s.gun := rfl
@[simp] theorem beginOpening_pipe :
    (beginOpening s).pipe =
    { s.pipe with pstate := .opening, lock := .held, handshakeSent := false } := rfl
@[simp] theorem beginOpening_ports : (beginOpening s).ports = s.ports := rfl

/-! ### finishSuspend -/

@[simp] theorem finishSuspend_par : (finishSuspend s).par = s.par := rfl
@[simp] theorem finishSuspend_delivered : (finishSuspend s).delivered = s.delivered := rfl
@[simp] theorem finishSuspend_raw : (finishSuspend s).raw = s.raw := rfl
@[simp] theorem finishSuspend_dec : (finishSuspend s).dec = s.dec := rfl
@[simp] theorem finishSuspend_work : (finishSuspend s).work = s.work := rfl
@[simp] theorem finishSuspend_gun : (finishSuspend s).gun = s.gun := rfl
@[simp] theorem finishSuspend_pipe :
    (finishSuspend s).pipe =
    { s.pipe with req := .none, pstate := .suspended, lock := .free } := rfl
@[simp] theorem finishSuspend_ports :
    (finishSuspend s).ports =
    { s.ports with outbox := s.ports.outbox ++ [.suspendAck] } := rfl

/-! ### finishClose -/

@[simp] theorem finishClose_par : (finishClose s).par = s.par := rfl
@[simp] theorem finishClose_delivered : (finishClose s).delivered = s.delivered := rfl
@[simp] theorem finishClose_raw : (finishClose s).raw = s.raw := rfl
@[simp] theorem finishClose_dec : (finishClose s).dec = s.dec := rfl
@[simp] theorem finishClose_work : (finishClose s).work = s.work := rfl
@[simp] theorem finishClose_gun : (finishClose s).gun = s.gun := rfl
@[simp] theorem finishClose_pipe :
    (finishClose s).pipe =
    { s.pipe with req := .none, pstate := .closed, lock := .free } := rfl
@[simp] theorem finishClose_ports : (finishClose s).ports = s.ports := rfl

/-! ### advance -/

@[simp] theorem advance_par (rest : List SeqOp) : (advance rest s).par = s.par := rfl
@[simp] theorem advance_delivered (rest : List SeqOp) : (advance rest s).delivered = s.delivered := rfl
@[simp] theorem advance_raw (rest : List SeqOp) : (advance rest s).raw = s.raw := rfl
@[simp] theorem advance_dec (rest : List SeqOp) : (advance rest s).dec = s.dec := rfl
@[simp] theorem advance_work (rest : List SeqOp) : (advance rest s).work = s.work := rfl
@[simp] theorem advance_gun (rest : List SeqOp) : (advance rest s).gun = s.gun := rfl
@[simp] theorem advance_pipe (rest : List SeqOp) : (advance rest s).pipe = s.pipe := rfl
@[simp] theorem advance_ports (rest : List SeqOp) : (advance rest s).ports = { s.ports with seq := rest } := rfl

/-! ### selectNext -/

@[simp] theorem selectNext_par (sel : Sel) : (selectNext sel s).par = s.par := rfl
@[simp] theorem selectNext_delivered (sel : Sel) : (selectNext sel s).delivered = s.delivered := rfl
@[simp] theorem selectNext_raw (sel : Sel) : (selectNext sel s).raw = s.raw := rfl
@[simp] theorem selectNext_dec (sel : Sel) : (selectNext sel s).dec = s.dec := rfl
@[simp] theorem selectNext_work (sel : Sel) : (selectNext sel s).work = s.work := rfl
@[simp] theorem selectNext_gun (sel : Sel) : (selectNext sel s).gun = s.gun := rfl
@[simp] theorem selectNext_pipe (sel : Sel) : (selectNext sel s).pipe = s.pipe := rfl
@[simp] theorem selectNext_ports (sel : Sel) :
    (selectNext sel s).ports =
    { s.ports with seq := .op sel :: s.ports.seq } := rfl

end Sys2Proof.Laws
end

