-- ==== Sys2Proof/Laws/Pipeline.lean ====
section
/-! SUPPORT. What the shared operations of the boundary can do, said once: the re-arm, taking an exception, an input, a
place of the program, a step. -/

namespace Sys2Proof.Laws

open Sys2Proof.Machine

/-! ### The re-arm -/

theorem rearm_granted {s : State} (h : s.ports.answers.armOk = true) : rearm s = armGranted s := by
  rw [rearm, if_pos h]

theorem rearm_failed {s : State} (h : s.ports.answers.armOk = false) : rearm s = armFailed s := by
  rw [rearm, h]; rfl

@[simp] theorem rearm_par (s : State) : (rearm s).par = s.par := by rw [rearm]; split <;> rfl
@[simp] theorem rearm_delivered (s : State) : (rearm s).delivered = s.delivered := by rw [rearm]; split <;> rfl
@[simp] theorem rearm_raw (s : State) : (rearm s).raw = s.raw := by rw [rearm]; split <;> rfl
@[simp] theorem rearm_dec (s : State) : (rearm s).dec = s.dec := by rw [rearm]; split <;> rfl
@[simp] theorem rearm_work (s : State) : (rearm s).work = s.work := by rw [rearm]; split <;> rfl
@[simp] theorem rearm_gun (s : State) : (rearm s).gun = s.gun := by rw [rearm]; split <;> rfl

/-- Granted, a request is in flight; failed, PSTATE is Closed and REQ is none (43_pipeline R214, R219). -/
theorem rearm_pipe (s : State) :
    (rearm s).pipe = { s.pipe with req := .inFlight } ∨
      (rearm s).pipe = { s.pipe with req := .none, pstate := .closed } := by
  rw [rearm]; split
  · exact .inl rfl
  · exact .inr rfl

/-- A re-arm puts out one request, and one report if it failed. -/
theorem rearm_ports (s : State) :
    ∃ new, (rearm s).ports = { s.ports with outbox := s.ports.outbox ++ new } ∧
      (new = [.armRequest] ∨ new = [.armRequest, .errorReport .armFailed]) := by
  rw [rearm]; split
  · exact ⟨_, rfl, .inl rfl⟩
  · exact ⟨_, rfl, .inr rfl⟩

/-! ### Taking an exception -/

@[simp] theorem raise_par (e : ErrorClass) (s : State) : (raise e s).par = s.par := by
  cases e <;> simp [raise]
@[simp] theorem raise_delivered (e : ErrorClass) (s : State) : (raise e s).delivered = s.delivered := by
  cases e <;> simp [raise]
@[simp] theorem raise_dec (e : ErrorClass) (s : State) : (raise e s).dec = s.dec := by
  cases e <;> simp [raise]
@[simp] theorem raise_work (e : ErrorClass) (s : State) : (raise e s).work = s.work := by
  cases e <;> simp [raise]
@[simp] theorem raise_gun (e : ErrorClass) (s : State) : (raise e s).gun = s.gun := by
  cases e <;> simp [raise]

/-- The line a drop may log (60_exceptions R256). -/
theorem dropLines_cases (s : State) (e : ErrorClass) :
    dropLines s e = [] ∨ s.pipe.diag = true ∧ dropLines s e = [.dropped e] := by
  rw [dropLines]
  split
  · next h => exact .inr ⟨(Bool.and_eq_true_iff.1 h).1, rfl⟩
  · exact .inl rfl

/-! ### An input -/

@[simp] theorem onEvent_par (e : Event) (s : State) : (onEvent e s).par = s.par := by
  cases e <;> simp only [onEvent, onData, onTimeout, onShutdown, onTransient, onOpen, onClose, onSuspend, onResume,
    cancelRequest] <;> repeat' split
  all_goals simp

@[simp] theorem takeInput_par (s : State) : (takeInput s).par = s.par := by
  rw [takeInput]
  split
  · rfl
  · split
    · rfl
    · simp
  · rfl

/-- An event changes no buffer, no working register and no output register. -/
theorem onEvent_codec (e : Event) (s : State) :
    (onEvent e s).raw = s.raw ∧ (onEvent e s).dec = s.dec ∧ (onEvent e s).work = s.work ∧ (onEvent e s).gun = s.gun := by
  cases e <;> simp only [onEvent, onData, onTimeout, onShutdown, onTransient, onOpen, onClose, onSuspend, onResume,
    cancelRequest, raise] <;> repeat' split
  all_goals simp

/-- Taking an input changes no buffer, no working register and no output register. -/
theorem takeInput_codec (s : State) :
    (takeInput s).raw = s.raw ∧ (takeInput s).dec = s.dec ∧ (takeInput s).work = s.work ∧ (takeInput s).gun = s.gun := by
  rw [takeInput]
  split
  · exact ⟨rfl, rfl, rfl, rfl⟩
  · split
    · exact ⟨rfl, rfl, rfl, rfl⟩
    · exact onEvent_codec _ _
  · exact ⟨rfl, rfl, rfl, rfl⟩

/-! ### The end of a lifecycle program -/

@[simp] theorem finishArm_par (s : State) : (finishArm s).par = s.par := by rw [finishArm]; split <;> rfl

/-- It changes no buffer, no working register and no output register. -/
theorem finishArm_codec (s : State) :
    (finishArm s).raw = s.raw ∧ (finishArm s).dec = s.dec ∧ (finishArm s).work = s.work ∧ (finishArm s).gun = s.gun := by
  rw [finishArm]; split <;> exact ⟨rfl, rfl, rfl, rfl⟩

/-! ### Who writes the codec's registers -/

/-- More operations that may have run allow no less. -/
theorem codecWrittenOnlyBy_mono {p q : Instr → Prop} {s u : State} (h : ∀ i, p i → q i)
    (w : codecWrittenOnlyBy p s u) : codecWrittenOnlyBy q s u := by
  obtain ⟨gun, sb, sa, ok, ofs, kidx, byte, i, rnd, tb, rk, op, dec, raw, par⟩ := w
  have decodes : ((∃ j, p (.decbyte j)) ∨ p .decode ∨ p .frame) → (∃ j, q (.decbyte j)) ∨ q .decode ∨ q .frame :=
    Or.imp (fun ⟨j, x⟩ => ⟨j, h _ x⟩) (Or.imp (h _) (h _))
  have rounds := Or.imp (h .round) decodes
  have pair : (∃ t, p (.subp t) ∨ p (.addp t) ∨ p (.xorp t)) → ∃ t, q (.subp t) ∨ q (.addp t) ∨ q (.xorp t) :=
    fun ⟨t, x⟩ => ⟨t, x.imp (h _) (Or.imp (h _) (h _))⟩
  exact ⟨Or.imp (h _) (h _) ∘ gun, Or.imp (h _) (h _) ∘ sb, Or.imp (h _) (h _) ∘ sa, Or.imp (h _) (h _) ∘ ok,
    Or.imp (h _) rounds ∘ ofs, rounds ∘ kidx, Or.imp pair rounds ∘ byte, decodes ∘ i, decodes ∘ rnd, rounds ∘ tb,
    rounds ∘ rk, rounds ∘ op, decodes ∘ dec, Or.imp (h _) (And.imp_left (h _)) ∘ raw, par⟩

/-- Where the registers and the parameters are unchanged nothing needs to have run. -/
theorem codecWrittenOnlyBy_of_codec {p : Instr → Prop} {s u : State}
    (h : u.raw = s.raw ∧ u.dec = s.dec ∧ u.work = s.work ∧ u.gun = s.gun) (hp : u.par = s.par) :
    codecWrittenOnlyBy p s u := by
  simp [codecWrittenOnlyBy, h, hp]

/-! ### A step -/

/-- Everything a step that answers a next state can be: the operation selected, a place of a lifecycle program, or an
input. -/
theorem step_cases {s u : State} (h : step s = .next u) :
    (∃ sel rest i, s.ports.seq = .op sel :: rest ∧ decodeSel sel = .ok i ∧ exec i (advance rest s) = .next u) ∨
    (∃ p rest, s.ports.seq = p :: rest ∧ (p = .openArm ∨ p = .resumeArm) ∧ u = finishArm (advance rest s)) ∨
    (∃ rest, s.ports.seq = .suspendDone :: rest ∧ u = finishSuspend (advance rest s)) ∨
    (∃ rest, s.ports.seq = .closeDone :: rest ∧ u = finishClose (advance rest s)) ∨
    (s.ports.seq = [] ∧ u = takeInput s) := by
  rw [step, runNext] at h
  split at h
  · next p rest hp =>
    cases p with
    | op sel =>
      simp only [runPlace] at h
      split at h
      · next i hi => exact .inl ⟨sel, rest, i, hp, hi, h⟩
      · cases h
    | openArm => cases h; exact .inr (.inl ⟨_, rest, hp, .inl rfl, rfl⟩)
    | suspendDone => cases h; exact .inr (.inr (.inl ⟨rest, hp, rfl⟩))
    | closeDone => cases h; exact .inr (.inr (.inr (.inl ⟨rest, hp, rfl⟩)))
    | resumeArm => cases h; exact .inr (.inl ⟨_, rest, hp, .inr rfl, rfl⟩)
  · next hp => cases h; exact .inr (.inr (.inr (.inr ⟨hp, rfl⟩)))

end Sys2Proof.Laws
end

