-- ==== Sys2Proof/Laws/Boundary.lean ====
section
/-! SUPPORT. Which step runs what, and each branch of the boundary's operations, one lemma each, so that no proof unfolds
them. -/

namespace Sys2Proof.Laws

open Sys2Proof.Machine

/-! ### Which step runs what -/

/-- A place left: it runs, the sequencer already past it. -/
theorem step_place {s : State} {p : SeqOp} {rest : List SeqOp} (h : s.ports.seq = p :: rest) :
    step s = runPlace p (advance rest s) := by
  rw [step, runNext, h]

/-- No place left: an input. -/
theorem step_input {s : State} (h : s.ports.seq = []) : step s = .next (takeInput s) := by
  rw [step, runNext, h]

/-- An event that LOCK does not hold back is handled with its answers. -/
theorem step_event {s : State} {e : Event} {a : Answers} {rest : List Input} (h : s.ports.seq = [])
    (hi : s.ports.inbox = .event e a :: rest) (hl : e.isLifecycle = false ∨ s.pipe.lock = .free) :
    step s = .next (onEvent e (loadAnswers a { s with ports.inbox := rest })) := by
  rw [step_input h, takeInput, hi]
  simp only
  rw [if_neg]
  rintro ⟨h1, h2⟩
  rcases hl with h | h
  · rw [h] at h1; cases h1
  · rw [h] at h2; cases h2

theorem run_of_step (M : Host.Core) {s u : M.State} (n : Nat) (h : M.step s = .next u) : M.run (n + 1) s = M.run n u := by
  rw [Host.Core.run, h]

/-- A run goes on from the state the first step answers. -/
theorem run_succ {s u : State} (n : Nat) (h : step s = .next u) : core.run (n + 1) s = core.run n u :=
  run_of_step core n h

theorem run_one {s u : State} (h : step s = .next u) : core.run 1 s = .next u := (run_succ 0 h).trans rfl

/-! ### Completions -/

theorem acceptsCompletion_live {s : State} (h : s.pipe.pstate = .streaming) (hr : s.pipe.req = .inFlight) :
    acceptsCompletion s = true := by simp [acceptsCompletion, h, hr]

theorem acceptsCompletion_outside {s : State} (h : s.pipe.pstate ≠ .streaming) : acceptsCompletion s = false := by
  simp [acceptsCompletion, h]

theorem onData_accepted {s : State} {bytes : List Byte} (h : acceptsCompletion s = true) :
    onData bytes s = { s with delivered := bytes, pipe.req := .none, ports.seq := [.op (.phase .frame)] } := by
  rw [onData, if_pos h]

theorem onTimeout_accepted {s : State} (h : acceptsCompletion s = true) : onTimeout s = raise .transportTimeout s := by
  rw [onTimeout, if_pos h]

theorem onShutdown_accepted {s : State} (h : acceptsCompletion s = true) : onShutdown s = raise .transportShutdown s := by
  rw [onShutdown, if_pos h]

theorem onTransient_accepted {s : State} (h : acceptsCompletion s = true) :
    onTransient s = raise .transportTransient { s with pipe.req := .none } := by
  rw [onTransient, if_pos h]

/-- A completion that is not accepted changes nothing (43_pipeline R222 d). -/
theorem completion_ignored {s : State} (h : acceptsCompletion s = false) :
    (∀ bytes, onData bytes s = s) ∧ onTimeout s = s ∧ onShutdown s = s ∧ onTransient s = s := by
  refine ⟨fun bytes => ?_, ?_, ?_, ?_⟩
  · rw [onData, h]; rfl
  · rw [onTimeout, h]; rfl
  · rw [onShutdown, h]; rfl
  · rw [onTransient, h]; rfl

/-! ### Lifecycle requests -/

theorem onOpen_closed {s : State} (h : s.pipe.pstate = .closed) (hr : s.ports.answers.resourceOk = true) :
    onOpen s = { beginOpening s with ports.seq := [.op (.phase .keyout), .openArm] } := by
  rw [onOpen, if_pos h, if_pos hr]

theorem onOpen_noResource {s : State} (h : s.pipe.pstate = .closed) (hr : s.ports.answers.resourceOk = false) :
    onOpen s = raise .resourceExhaustion (beginOpening s) := by
  rw [onOpen, if_pos h, hr]; rfl

theorem onOpen_elsewhere {s : State} (h : s.pipe.pstate ≠ .closed) : onOpen s = s := by rw [onOpen, if_neg h]

theorem cancelRequest_inFlight {s : State} (h : s.pipe.req = .inFlight) :
    cancelRequest s = putOut [.cancelRequest] s := by rw [cancelRequest, if_pos h]

theorem cancelRequest_none {s : State} (h : s.pipe.req ≠ .inFlight) : cancelRequest s = s := by
  rw [cancelRequest, if_neg h]

theorem onClose_open {s : State} (h : s.pipe.pstate = .streaming ∨ s.pipe.pstate = .suspended) :
    onClose s = cancelRequest { s with pipe.pstate := .closing, pipe.lock := .held, ports.seq := [.closeDone] } := by
  rw [onClose, if_pos h]

theorem onClose_elsewhere {s : State} (h : ¬ (s.pipe.pstate = .streaming ∨ s.pipe.pstate = .suspended)) :
    onClose s = s := by rw [onClose, if_neg h]

theorem onSuspend_streaming {s : State} (h : s.pipe.pstate = .streaming) :
    onSuspend s =
      cancelRequest { s with pipe.wasStreaming := true, pipe.lock := .held, ports.seq := [.suspendDone] } := by
  rw [onSuspend, if_pos h]

theorem onSuspend_elsewhere {s : State} (h : s.pipe.pstate ≠ .streaming) :
    onSuspend s = { s with pipe.wasStreaming := false } := by rw [onSuspend, if_neg h]

theorem onResume_rearms {s : State} (h : s.pipe.pstate = .suspended) (hw : s.pipe.wasStreaming = true) :
    onResume s = { s with pipe.lock := .held, ports.seq := [.resumeArm] } := by rw [onResume, if_pos ⟨h, hw⟩]

theorem onResume_elsewhere {s : State} (h : ¬ (s.pipe.pstate = .suspended ∧ s.pipe.wasStreaming = true)) :
    onResume s = s := by rw [onResume, if_neg h]

/-! ### The arming that ends a program -/

theorem finishArm_granted {s : State} (h : s.ports.answers.armOk = true) :
    finishArm s = { armGranted s with pipe.pstate := .streaming, pipe.lock := .free } := by rw [finishArm, if_pos h]

theorem finishArm_failed {s : State} (h : s.ports.answers.armOk = false) :
    finishArm s = { armFailed s with pipe.lock := .free } := by rw [finishArm, h]; rfl

theorem finishArm_inbox (s : State) : (finishArm s).ports.inbox = s.ports.inbox := by rw [finishArm]; split <;> rfl

/-! ### The handshake -/

theorem execKeyout_sent {s : State} (h : s.ports.answers.sendOk = true) : execKeyout s = .next (sendKey s) := by
  rw [execKeyout, if_pos h]

theorem execKeyout_failed {s : State} (h : s.ports.answers.sendOk = false) :
    execKeyout s = .next (handshakeFailed (sendKey s)) := by rw [execKeyout, h]; rfl

end Sys2Proof.Laws
end

