-- ==== Sys2Proof/Laws/Decoder.lean ====
section
/-! SUPPORT. What a round and a DECBYTE can do, said once: ROUND by its table byte, and, inside a frame, where OFS and
KIDX follow the closed schedule (41_decoder R151). -/

namespace Sys2Proof.Laws

open Sys2Proof.Machine

/-! ### Sequencing -/

@[simp] theorem andThen_next (s : State) (f : State → Host.Outcome State Fault Refusal) : andThen (.next s) f = f s := rfl

/-- Two next states are the same outcome only if they are the same state. -/
theorem next_inj {s t : State} (h : (Host.Outcome.next s : Host.Outcome State Fault Refusal) = .next t) : s = t := by
  injection h

/-- A sequence answers a next state exactly when both of its parts do. -/
theorem andThen_eq_next {o : Host.Outcome State Fault Refusal} {f : State → Host.Outcome State Fault Refusal} {u : State} :
    andThen o f = .next u ↔ ∃ t, o = .next t ∧ f t = .next u := by
  cases o <;> simp [andThen]

/-! ### The table and the key index -/

/-- Every index 0..319 reads a table byte (00_scope R11). -/
theorem tableAt_inside (p : Params) {idx : Int} (h0 : 0 ≤ idx) (h1 : idx < 320) : ∃ t, tableAt p idx = some t := by
  refine ⟨p.table[idx.toNat]'(by omega), ?_⟩
  rw [tableAt, if_pos h0]
  exact Vector.getElem?_eq_getElem (by omega)

/-- No index outside 0..319 does. -/
theorem tableAt_outside (p : Params) {idx : Int} (h : idx < 0 ∨ 320 ≤ idx) : tableAt p idx = none := by
  rw [tableAt]
  split
  · rw [Vector.getElem?_eq_none]
    omega
  · rfl

/-- The rotation leaves KIDX in 1..7 (10_state R31). -/
theorem rotate_ne_zero (k : BitVec 3) : rotate k ≠ 0 := by revert k; decide

/-- The rotation is down by one, with 7 after 1 (10_state R31). -/
theorem rotate_toNat (k : BitVec 3) (hk : k ≠ 0) : (rotate k).toNat = if k.toNat = 1 then 7 else k.toNat - 1 := by
  revert k; decide

/-- The closed form of the key index rotates with the rounds (41_decoder R143, R151). -/
theorem rotate_keyIndexAt {n : Nat} (h : n < 40) : rotate (keyIndexAt n) = keyIndexAt (n + 1) := by
  revert n; decide

theorem keyIndexAt_first : keyIndexAt 1 = 4 := by decide

theorem keyIndexAt_ne_zero {n : Nat} (h : n < 41) : keyIndexAt n ≠ 0 := by revert n; decide

/-! ### ROUND -/

/-- The dispatch of a latched round is the reference byte operation (41_decoder R144 to R147). -/
theorem dispatchRound_latched (t : Byte) (s : State) :
    dispatchRound (latchRound t s) =
      .next (setByte (applyTableByte t (keyAt s.par s.work.kidx) s.work.byte) (latchRound t s)) := by
  have hop : (latchRound t s).work.op = selector t := rfl
  rw [dispatchRound, applyTableByte, hop]
  by_cases h0 : selector t = 0
  · rw [if_pos h0, if_pos h0]; rfl
  · by_cases h1 : selector t = 1
    · rw [if_neg h0, if_neg h0, if_pos h1, if_pos h1]; rfl
    · rw [if_neg h0, if_neg h0, if_neg h1, if_neg h1]; rfl

/-- ROUND, when the decremented offset reads the table byte `t` (41_decoder R144). -/
theorem execRound_next {s : State} {t : Byte} (h : tableAt s.par (tableIndex (s.work.ofs - 1)) = some t) :
    execRound s =
      .next (setByte (applyTableByte t (keyAt s.par s.work.kidx) s.work.byte) (latchRound t s)) := by
  rw [execRound, h]
  exact dispatchRound_latched t s

/-- ROUND, when it reads none (00_scope R11). -/
theorem execRound_fault {s : State} (h : tableAt s.par (tableIndex (s.work.ofs - 1)) = none) :
    execRound s = .fault .tableIndexOutOfRange := by
  rw [execRound, h]

/-- Whatever ROUND answers as a next state, only working registers have changed, and of those not the authenticator's,
I or RND; OFS is down by one and KIDX rotated. -/
theorem execRound_frame {s u : State} (h : execRound s = .next u) :
    u = { s with work := u.work } ∧ u.work.sb = s.work.sb ∧ u.work.sa = s.work.sa ∧ u.work.authOk = s.work.authOk ∧
      u.work.i = s.work.i ∧ u.work.rnd = s.work.rnd ∧ u.work.ofs = s.work.ofs - 1 ∧
      u.work.kidx = rotate s.work.kidx := by
  rcases ht : tableAt s.par (tableIndex (s.work.ofs - 1)) with _ | t
  · rw [execRound_fault ht] at h
    cases h
  · rw [execRound_next ht] at h
    cases h
    exact ⟨rfl, rfl, rfl, rfl, rfl, rfl, rfl, rfl⟩

/-- ROUND answers a next state when its index, OFS + 64, reads a table byte, and BYTE is then the reference operation of
that byte and of the key byte at the old KIDX (41_decoder R144). -/
theorem execRound_reads {s : State} {t : Byte} (h : tableAt s.par (s.work.ofs + 64) = some t) :
    ∃ u, execRound s = .next u ∧ u.work.byte = applyTableByte t (keyAt s.par s.work.kidx) s.work.byte := by
  have hi : tableIndex (s.work.ofs - 1) = s.work.ofs + 64 := by rw [tableIndex]; omega
  exact ⟨_, execRound_next (by rw [hi]; exact h), rfl⟩

/-! ### Inside a frame -/

/-- `n` rounds of the frame with initial offset `o` have run (41_decoder R151). -/
def RoundsRun (o : Byte) (n : Nat) (s : State) : Prop :=
  s.work.ofs = (o.toNat : Int) - n ∧ s.work.kidx = keyIndexAt (n + 1)

/-- The next round of a frame is the scheduled one, and it never faults (41_decoder R151, R152). -/
theorem execRound_scheduled {o : Byte} {n : Nat} {s : State} (hs : RoundsRun o n s) (hn : n < 39) :
    ∃ u, execRound s = .next u ∧ RoundsRun o (n + 1) u ∧ u.work.byte = scheduledRound s.par o (n + 1) s.work.byte := by
  have ho := o.isLt
  obtain ⟨t, ht⟩ := tableAt_inside s.par (idx := tableIndex (s.work.ofs - 1))
    (by rw [tableIndex, hs.1]; omega) (by rw [tableIndex, hs.1]; omega)
  refine ⟨_, execRound_next ht, ⟨?_, ?_⟩, ?_⟩
  · simp only [setByte_work, latchRound_work, hs.1]
    omega
  · simp only [setByte_work, latchRound_work, hs.2]
    exact rotate_keyIndexAt (by omega)
  · have hidx : (o.toNat : Int) + 65 - (n + 1 : Nat) = tableIndex (s.work.ofs - 1) := by
      rw [tableIndex, hs.1]
      omega
    simp only [setByte_work, scheduledRound, tableByteAt, hidx, ht, hs.2, Option.getD_some]

/-- DECBYTE i of a frame: three scheduled rounds, DEC[i] written, never a fault (41_decoder R148, R151). -/
theorem execDecbyte_scheduled {o : Byte} {i : Fin 13} {s : State} (hs : RoundsRun o (3 * (12 - i.val)) s) :
    ∃ w, execDecbyte i s =
        .next { s with dec := s.dec.write i.val (decodedByte s.par o i.val (s.raw.read i.val)), work := w } ∧
      w.ofs = (o.toNat : Int) - (3 * (12 - i.val) + 3 : Nat) ∧ w.kidx = keyIndexAt (3 * (12 - i.val) + 4) ∧
      w.sb = s.work.sb ∧ w.sa = s.work.sa ∧ w.authOk = s.work.authOk := by
  have hi := i.isLt
  obtain ⟨a, ha, ra, ba⟩ := execRound_scheduled (o := o) (n := 3 * (12 - i.val))
    (s := setRound 1 (loadByte i s)) hs (by omega)
  obtain ⟨b, hb, rb, bb⟩ := execRound_scheduled (o := o) (n := 3 * (12 - i.val) + 1)
    (s := setRound 2 a) ra (by omega)
  obtain ⟨c, hc, rc, bc⟩ := execRound_scheduled (o := o) (n := 3 * (12 - i.val) + 2)
    (s := setRound 3 b) rb (by omega)
  have fa := execRound_frame ha
  have fb := execRound_frame hb
  have fc := execRound_frame hc
  have hpa : a.par = s.par := by rw [fa.1]; rfl
  have hpb : b.par = s.par := by rw [fb.1]; exact hpa
  have hc' : c = { s with work := c.work } := by
    have hb' : setRound 3 b = { s with work := (setRound 3 b).work } := by
      rw [fb.1]
      have ha' : setRound 2 a = { s with work := (setRound 2 a).work } := by rw [fa.1]; rfl
      rw [ha']
      rfl
    exact fc.1.trans (by rw [hb'])
  refine ⟨c.work, ?_, rc.1, rc.2, ?_, ?_, ?_⟩
  · rw [execDecbyte, runRounds, ha, andThen_next, runRounds, hb, andThen_next, runRounds, hc, andThen_next, runRounds,
      andThen_next]
    have hbyte : c.work.byte = decodedByte s.par o i.val (s.raw.read i.val) := by
      rw [bc, setRound_work, bb, setRound_work, ba, setRound_work, loadByte_work, setRound_par, setRound_par,
        setRound_par, hpb, hpa, loadByte_par]
      rfl
    rw [hbyte, hc']
    rfl
  · rw [fc.2.1, setRound_work, fb.2.1, setRound_work, fa.2.1]; rfl
  · rw [fc.2.2.1, setRound_work, fb.2.2.1, setRound_work, fa.2.2.1]; rfl
  · rw [fc.2.2.2.1, setRound_work, fb.2.2.2.1, setRound_work, fa.2.2.2.1]; rfl

end Sys2Proof.Laws
end

