-- ==== Sys2Proof/Laws/Memory.lean ====
section
/-! SUPPORT. The laws of the byte arrays: what a read gives after a write, that every operation keeps the canonical
form, and that arrays that read alike are equal data. -/

namespace Sys2Proof.Laws

open Sys2Proof.Machine

variable {size lo a b : Nat} {v : Byte} {m : Memory}

theorem wfFrom_cons {k : Nat} {x : Byte} :
    Memory.wfFrom size lo ((k, x) :: m) = true ↔
      lo ≤ k ∧ k < size ∧ x ≠ unlistedByte ∧ Memory.wfFrom size (k + 1) m = true := by
  simp [Memory.wfFrom, and_assoc]

theorem wfFrom_mono {lo' : Nat} (h : Memory.wfFrom size lo m = true) (hl : lo' ≤ lo) :
    Memory.wfFrom size lo' m = true := by
  cases m with
  | nil => rfl
  | cons c m =>
    obtain ⟨k, x⟩ := c
    rw [wfFrom_cons] at h ⊢
    exact ⟨by omega, h.2⟩

theorem read_below (h : Memory.wfFrom size lo m = true) (ha : a < lo) : Memory.read m a = unlistedByte := by
  induction m generalizing lo with
  | nil => rfl
  | cons c m ih =>
    obtain ⟨k, x⟩ := c
    rw [wfFrom_cons] at h
    simp only [Memory.read]
    rw [if_neg (by omega)]
    exact ih h.2.2.2 (by omega)

theorem read_write_from (h : Memory.wfFrom size lo m = true) :
    Memory.read (Memory.write m a v) b = if b = a then v else Memory.read m b := by
  induction m generalizing lo with
  | nil =>
    simp only [Memory.write]
    split <;> rename_i hv <;> simp [Memory.read, hv, eq_comm]
  | cons c m ih =>
    obtain ⟨k, x⟩ := c
    have h' := wfFrom_cons.1 h
    have below : a < k → Memory.read ((k, x) :: m) a = unlistedByte := fun hk =>
      read_below (wfFrom_cons.2 ⟨Nat.le_refl k, h'.2⟩) hk
    simp only [Memory.write]
    by_cases h1 : a < k
    · rw [if_pos h1]
      by_cases hv : v = unlistedByte
      · rw [if_pos hv]
        split
        · next hb => rw [hb, below h1, hv]
        · rfl
      · rw [if_neg hv]
        simp [Memory.read, eq_comm]
    · rw [if_neg h1]
      by_cases h2 : a = k
      · subst h2
        rw [if_pos rfl]
        by_cases hv : v = unlistedByte
        · rw [if_pos hv]
          by_cases hb : b = a
          · rw [if_pos hb, hb, read_below h'.2.2.2 (Nat.lt_succ_self _), hv]
          · simp [Memory.read, hb, Ne.symm hb]
        · rw [if_neg hv]
          by_cases hb : b = a
          · simp [Memory.read, hb]
          · simp [Memory.read, hb, Ne.symm hb]
      · rw [if_neg h2]
        simp only [Memory.read]
        rw [ih h'.2.2.2]
        by_cases hb : b = a
        · subst hb
          simp [Ne.symm h2]
        · simp [hb]

/-- A read after a write: the byte written there, and every other byte as before. -/
theorem read_write (h : Memory.wf size m = true) :
    Memory.read (Memory.write m a v) b = if b = a then v else Memory.read m b := read_write_from h

/-- No entry stands at or past the size. -/
theorem read_beyond (h : Memory.wfFrom size lo m = true) (ha : size ≤ a) : Memory.read m a = unlistedByte := by
  induction m generalizing lo with
  | nil => rfl
  | cons c m ih =>
    obtain ⟨k, x⟩ := c
    rw [wfFrom_cons] at h
    simp only [Memory.read]
    rw [if_neg (by omega)]
    exact ih h.2.2.2

theorem write_keeps_wfFrom (h : Memory.wfFrom size lo m = true) (hl : lo ≤ a) (ha : a < size) :
    Memory.wfFrom size lo (Memory.write m a v) = true := by
  induction m generalizing lo with
  | nil =>
    simp only [Memory.write]
    split
    · rfl
    · next hv => exact wfFrom_cons.2 ⟨hl, ha, hv, rfl⟩
  | cons c m ih =>
    obtain ⟨k, x⟩ := c
    have h' := wfFrom_cons.1 h
    simp only [Memory.write]
    split
    · next h1 =>
      split
      · exact h
      · next hv => exact wfFrom_cons.2 ⟨hl, ha, hv, wfFrom_cons.2 ⟨h1, h'.2⟩⟩
    · next h1 =>
      split
      · next h2 =>
        subst h2
        split
        · exact wfFrom_mono h'.2.2.2 (by omega)
        · next hv => exact wfFrom_cons.2 ⟨hl, ha, hv, h'.2.2.2⟩
      · next h2 => exact wfFrom_cons.2 ⟨h'.1, h'.2.1, h'.2.2.1, ih h'.2.2.2 (by omega)⟩

/-- A write inside the array keeps the canonical form. -/
theorem write_keeps_wf (h : Memory.wf size m = true) (ha : a < size) : Memory.wf size (Memory.write m a v) = true :=
  write_keeps_wfFrom h (Nat.zero_le a) ha

theorem ofBytesFrom_wf {bs : List Byte} (h : lo + bs.length ≤ size) :
    Memory.wfFrom size lo (Memory.ofBytesFrom lo bs) = true := by
  induction bs generalizing lo with
  | nil => rfl
  | cons x bs ih =>
    simp only [List.length_cons] at h
    simp only [Memory.ofBytesFrom]
    split
    · exact wfFrom_mono (ih (by omega)) (Nat.le_succ lo)
    · next hx => exact wfFrom_cons.2 ⟨Nat.le_refl lo, by omega, hx, ih (by omega)⟩

/-- An array made of at most `size` bytes is in canonical form. -/
theorem ofBytes_wf {bs : List Byte} (h : bs.length ≤ size) : Memory.wf size (Memory.ofBytes bs) = true :=
  ofBytesFrom_wf (by omega)

theorem read_ofBytesFrom {bs : List Byte} :
    Memory.read (Memory.ofBytesFrom lo bs) a = if a < lo then unlistedByte else bs.getD (a - lo) unlistedByte := by
  induction bs generalizing lo with
  | nil => simp [Memory.ofBytesFrom, Memory.read]
  | cons x bs ih =>
    simp only [Memory.ofBytesFrom]
    by_cases hx : x = unlistedByte
    · rw [if_pos hx, ih]
      by_cases h1 : a < lo
      · rw [if_pos h1, if_pos (by omega)]
      · rw [if_neg h1]
        by_cases h2 : a = lo
        · subst h2
          simp [hx]
        · rw [if_neg (by omega), show a - lo = (a - (lo + 1)) + 1 by omega, List.getD_cons_succ]
    · rw [if_neg hx]
      simp only [Memory.read]
      rw [ih]
      by_cases h1 : a < lo
      · rw [if_neg (by omega), if_pos (by omega), if_pos h1]
      · by_cases h2 : a = lo
        · subst h2
          simp
        · rw [if_neg (by omega), if_neg (by omega), if_neg h1, show a - lo = (a - (lo + 1)) + 1 by omega,
            List.getD_cons_succ]

/-- An array made of bytes reads as those bytes. -/
theorem read_ofBytes {bs : List Byte} : Memory.read (Memory.ofBytes bs) a = bs.getD a 0 := by
  simp [Memory.ofBytes, read_ofBytesFrom, unlistedByte]

theorem ext_from {n : Memory} (hm : Memory.wfFrom size lo m = true) (hn : Memory.wfFrom size lo n = true)
    (h : ∀ a, Memory.read m a = Memory.read n a) : m = n := by
  induction m generalizing lo n with
  | nil =>
    cases n with
    | nil => rfl
    | cons c n =>
      obtain ⟨k, x⟩ := c
      have := h k
      simp only [Memory.read] at this
      exact absurd this.symm (by simpa using (wfFrom_cons.1 hn).2.2.1)
  | cons c m ih =>
    obtain ⟨k, x⟩ := c
    have hm' := wfFrom_cons.1 hm
    cases n with
    | nil =>
      have := h k
      simp only [Memory.read] at this
      exact absurd this (by simpa using hm'.2.2.1)
    | cons d n =>
      obtain ⟨l, y⟩ := d
      have hn' := wfFrom_cons.1 hn
      have hkl : k = l := by
        rcases Nat.lt_trichotomy k l with hlt | heq | hgt
        · have := h k
          rw [read_below (wfFrom_cons.2 ⟨Nat.le_refl l, hn'.2⟩) hlt] at this
          exact absurd this (by simpa [Memory.read] using hm'.2.2.1)
        · exact heq
        · have := h l
          rw [read_below (wfFrom_cons.2 ⟨Nat.le_refl k, hm'.2⟩) hgt] at this
          exact absurd this.symm (by simpa [Memory.read] using hn'.2.2.1)
      subst hkl
      have hxy : x = y := by simpa [Memory.read] using h k
      subst hxy
      have : m = n := by
        refine ih hm'.2.2.2 hn'.2.2.2 fun a => ?_
        by_cases ha : k = a
        · subst ha
          rw [read_below hm'.2.2.2 (Nat.lt_succ_self _), read_below hn'.2.2.2 (Nat.lt_succ_self _)]
        · simpa [Memory.read, ha] using h a
      rw [this]

/-- Two arrays in canonical form that read alike are equal. -/
theorem memory_ext {n : Memory} (hm : Memory.wf size m = true) (hn : Memory.wf size n = true)
    (h : ∀ a, Memory.read m a = Memory.read n a) : m = n := ext_from hm hn h

end Sys2Proof.Laws
end

