-- ==== Sys2Proof/Laws/Frames.lean ====
section
/-! SUPPORT. What the loop over a frame's bytes, and each branch of FRAME, can do, said once. -/

namespace Sys2Proof.Laws

open Sys2Proof.Machine

/-! ### The loop over the bytes -/

/-- DEC after the scheduled bytes of the list, in its order, have been stored (41_decoder R148, R151). -/
def storeScheduled (p : Params) (o : Byte) (raw : Memory) (is : List (Fin 13)) (dec : Memory) : Memory :=
  is.foldl (fun m i => m.write i.val (decodedByte p o i.val (raw.read i.val))) dec

theorem storeScheduled_cons (p : Params) (o : Byte) (raw : Memory) (i : Fin 13) (is : List (Fin 13)) (dec : Memory) :
    storeScheduled p o raw (i :: is) dec =
      storeScheduled p o raw is (dec.write i.val (decodedByte p o i.val (raw.read i.val))) := rfl

/-- Storing bytes of different indices: the canonical form is kept, each index of the list reads its scheduled byte, and
every other address reads as before. -/
theorem storeScheduled_spec {p : Params} {o : Byte} {raw : Memory} {is : List (Fin 13)} (hn : is.Nodup) {dec : Memory}
    (hw : Memory.wf decSize dec = true) :
    Memory.wf decSize (storeScheduled p o raw is dec) = true ∧
      (∀ i ∈ is, (storeScheduled p o raw is dec).read i.val = decodedByte p o i.val (raw.read i.val)) ∧
      ∀ a, (∀ i ∈ is, i.val ≠ a) → (storeScheduled p o raw is dec).read a = dec.read a := by
  induction is generalizing dec with
  | nil => exact ⟨hw, by simp, fun _ _ => rfl⟩
  | cons i is ih =>
    obtain ⟨hi, hn⟩ := List.nodup_cons.1 hn
    have hread := fun a => read_write (a := i.val) (v := decodedByte p o i.val (raw.read i.val)) (b := a) hw
    obtain ⟨h1, h2, h3⟩ := ih hn
      (write_keeps_wf (a := i.val) (v := decodedByte p o i.val (raw.read i.val)) hw (by simp [decSize]))
    rw [storeScheduled_cons]
    refine ⟨h1, fun j hj => ?_, fun a ha => ?_⟩
    · rcases List.mem_cons.1 hj with rfl | hj
      · rw [h3 _ fun k hk he => hi (by rwa [← Fin.ext he]), hread, if_pos rfl]
      · exact h2 j hj
    · rw [h3 a fun k hk => ha k (List.mem_cons_of_mem _ hk), hread, if_neg fun h => ha i List.mem_cons_self h.symm]

theorem byteOrder_drop : ∀ k : Fin 13, byteOrder.drop (12 - k.val) = k :: byteOrder.drop (13 - k.val) := by decide

/-- The last `k` bytes of a frame, once the rounds of the bytes before them have run: scheduled bytes into DEC, and never
a fault (41_decoder R149, R151, R152). -/
theorem decodeBytesOf_scheduled (o : Byte) {k : Nat} (hk : k ≤ 13) {s : State} (hs : RoundsRun o (3 * (13 - k)) s) :
    ∃ w, decodeBytesOf (byteOrder.drop (13 - k)) s =
        .next { s with dec := storeScheduled s.par o s.raw (byteOrder.drop (13 - k)) s.dec, work := w } ∧
      w.ofs = (o.toNat : Int) - 39 ∧ w.kidx = 7 ∧ w.sb = s.work.sb ∧ w.sa = s.work.sa ∧ w.authOk = s.work.authOk := by
  induction k generalizing s with
  | zero => exact ⟨s.work, rfl, hs.1, hs.2.trans (by decide), rfl, rfl, rfl⟩
  | succ k ih =>
    have hd := byteOrder_drop ⟨k, by omega⟩
    simp only at hd
    have hs' : RoundsRun o (3 * (12 - (⟨k, by omega⟩ : Fin 13).val)) s := by
      rwa [show 3 * (12 - (⟨k, by omega⟩ : Fin 13).val) = 3 * (13 - (k + 1)) by simp only; omega]
    obtain ⟨w, hw, h1, h2, h3, h4, h5⟩ := execDecbyte_scheduled hs'
    have hnext : RoundsRun o (3 * (13 - k))
        { s with dec := s.dec.write k (decodedByte s.par o k (s.raw.read k)), work := w } := by
      refine ⟨h1.trans ?_, h2.trans ?_⟩
      · congr 2; simp only; omega
      · congr 1; simp only; omega
    obtain ⟨x, hx, g1, g2, g3, g4, g5⟩ := ih (by omega) hnext
    refine ⟨x, ?_, g1, g2, g3.trans h3, g4.trans h4, g5.trans h5⟩
    rw [show 13 - (k + 1) = 12 - k by omega, hd, decodeBytesOf, hw, andThen_next, storeScheduled_cons]
    exact hx

/-- DECODE: always a next state, all thirteen scheduled bytes in DEC (41_decoder R140, R151, R152). -/
theorem execDecode_scheduled (s : State) :
    let o := initialOffset s.par (s.raw.read 14)
    ∃ w, execDecode s = .next { s with dec := storeScheduled s.par o s.raw byteOrder s.dec, work := w } ∧
      w.ofs = (o.toNat : Int) - 39 ∧ w.kidx = 7 ∧ w.sb = s.work.sb ∧ w.sa = s.work.sa ∧ w.authOk = s.work.authOk :=
  decodeBytesOf_scheduled _ (Nat.le_refl 13) (s := loadKeyIndex (loadOffset s)) ⟨by simp, by simp; decide⟩

/-! ### The branches of FRAME -/

/-- Wrong length (43_pipeline R211). -/
theorem execFrame_wrongLength {s : State} (hp : s.pipe.pstate = .streaming) (hl : s.delivered.length ≠ 15) :
    execFrame s = .next (rearm (raise (.malformedLength s.delivered.length) s)) := by
  rw [execFrame, if_pos hp, execLenchk, if_neg (show ¬ s.len = rawSize from hl), andThen_next, if_neg (by simp [raise])]
  rfl

/-- Right length: the gate follows (43_pipeline R210). -/
theorem execFrame_rightLength {s : State} (hp : s.pipe.pstate = .streaming) (hl : s.delivered.length = 15) :
    execFrame s = gateFrame (noteRaised none s) := by
  rw [execFrame, if_pos hp, execLenchk, if_pos (show s.len = rawSize from hl), andThen_next, if_pos (by simp)]

/-- Not authentic (43_pipeline R212). -/
theorem gateFrame_reject {s : State} (h : (authenticate (loadRaw s)).work.authOk = false) :
    gateFrame s = .next (rearm (raise .authenticationFailure (authenticate (loadRaw s)))) := by
  rw [gateFrame, execAuth, andThen_next, h]
  rfl

/-- Authentic (43_pipeline R213). -/
theorem gateFrame_accept {s : State} (h : (authenticate (loadRaw s)).work.authOk = true) :
    gateFrame s = acceptFrame (authenticate (loadRaw s)) := by
  rw [gateFrame, execAuth, andThen_next, if_pos h]

/-- Outside Streaming (43_pipeline R222 d). -/
theorem execFrame_outside {s : State} (hp : s.pipe.pstate ≠ .streaming) : execFrame s = .next s := by
  rw [execFrame, if_neg hp]

end Sys2Proof.Laws
end

