-- ==== Sys2Proof/Laws/PerInstr.lean ====
section
/-! SUPPORT. One lemma per operation: which of the three formats selects it (30_encoding R101): a table byte, a query
mask, or a place in the program. -/

namespace Sys2Proof.Laws

/-- The three values of the selector of a well-formed round word (30_encoding R91). -/
theorem selector_subp : ∀ t : Byte, (t &&& 0x03 == 0x00) = true → selector t = 0 := by decide
theorem selector_addp : ∀ t : Byte, (t &&& 0x03 == 0x01) = true → selector t = 1 := by decide
theorem selector_xorp : ∀ t : Byte, (t &&& 0x02 == 0x02) = true → selector t ≠ 0 ∧ selector t ≠ 1 := by decide

namespace Format

/-- The encoder writes a table byte, the mask of the button queried, or the phase itself. -/
def Statement (i : Instr) : Prop :=
  (∃ t, encode i = .word [t] ∧ (i = .subp t ∨ i = .addp t ∨ i = .xorp t)) ∨
  (∃ b : Button, encode i = .word (bytesOfMask b.mask) ∧ i = b.query) ∨
  (∃ p : Phase, encode i = .phase p ∧ i = p.instr)

theorem subp (t : Byte) : Statement (.subp t) := .inl ⟨t, rfl, .inl rfl⟩
theorem addp (t : Byte) : Statement (.addp t) := .inl ⟨t, rfl, .inr (.inl rfl)⟩
theorem xorp (t : Byte) : Statement (.xorp t) := .inl ⟨t, rfl, .inr (.inr rfl)⟩
theorem lenchk : Statement .lenchk := .inr (.inr ⟨.lenchk, rfl, rfl⟩)
theorem auth : Statement .auth := .inr (.inr ⟨.auth, rfl, rfl⟩)
theorem ofsinit : Statement .ofsinit := .inr (.inr ⟨.ofsinit, rfl, rfl⟩)
theorem round : Statement .round := .inr (.inr ⟨.round, rfl, rfl⟩)
theorem decbyte (i : Fin 13) : Statement (.decbyte i) := .inr (.inr ⟨.decbyte i, rfl, rfl⟩)
theorem decode : Statement .decode := .inr (.inr ⟨.decode, rfl, rfl⟩)
theorem map : Statement .map := .inr (.inr ⟨.map, rfl, rfl⟩)
theorem frame : Statement .frame := .inr (.inr ⟨.frame, rfl, rfl⟩)
theorem keyout : Statement .keyout := .inr (.inr ⟨.keyout, rfl, rfl⟩)
theorem btnqTrigger : Statement .btnqTrigger := .inr (.inl ⟨.trigger, rfl, rfl⟩)
theorem btnqA1 : Statement .btnqA1 := .inr (.inl ⟨.a1, rfl, rfl⟩)
theorem btnqA2 : Statement .btnqA2 := .inr (.inl ⟨.a2, rfl, rfl⟩)
theorem btnqA3 : Statement .btnqA3 := .inr (.inl ⟨.a3, rfl, rfl⟩)
theorem btnqB1 : Statement .btnqB1 := .inr (.inl ⟨.b1, rfl, rfl⟩)
theorem btnqB2 : Statement .btnqB2 := .inr (.inl ⟨.b2, rfl, rfl⟩)
theorem btnqB3 : Statement .btnqB3 := .inr (.inl ⟨.b3, rfl, rfl⟩)
theorem btnqC1 : Statement .btnqC1 := .inr (.inl ⟨.c1, rfl, rfl⟩)
theorem btnqC2 : Statement .btnqC2 := .inr (.inl ⟨.c2, rfl, rfl⟩)
theorem btnqOutOfRange : Statement .btnqOutOfRange := .inr (.inl ⟨.outOfRange, rfl, rfl⟩)
theorem btnqOneReference : Statement .btnqOneReference := .inr (.inl ⟨.oneReference, rfl, rfl⟩)

end Format

end Sys2Proof.Laws
end

