-- ==== Sys2Proof/Tests/Slice0.lean ====
section
/-! SUPPORT. The model's own tests, each one step on a small state: the expected values are the worked examples and
vectors of spec/ (the comment names which), never the model's own answer. -/

namespace Sys2Proof.Tests

open Sys2Proof.Machine

set_option maxRecDepth 20000
set_option Elab.async false

/-! ### Helpers -/

/-- T_ZERO of 95_test_vectors. -/
def tableZero : Vector Byte 320 := ⟨⟨List.replicate 320 0⟩, by simp⟩

/-- T_LCG of 95_test_vectors: T[j] = (37 j + 11) mod 256. -/
def tableLcg : Vector Byte 320 := ⟨⟨(List.range 320).map fun j => BitVec.ofNat 8 (37 * j + 11)⟩, by simp⟩

/-- T_ID of 95_test_vectors: T[j] = j mod 256. -/
def tableId : Vector Byte 320 := ⟨⟨(List.range 320).map fun j => BitVec.ofNat 8 j⟩, by simp⟩

/-- A streaming instance with the default key, a synthetic table and a frame just delivered (and in RAW). -/
def at15 (t : Vector Byte 320) (bytes : List Byte) : State :=
  { State.reset with
    par := { Config.params with table := t }
    delivered := bytes
    raw := Memory.ofBytes bytes
    pipe.pstate := .streaming }

/-- The frame V9 of 95_test_vectors, authentic. -/
def frameV9 : List Byte := [0xAE, 0x0D, 0xD3, 0x1C, 0x07, 0xF3, 0x10, 0xA7, 0x83, 0x52, 0xC6, 0xCE, 0x17, 0x8C, 0x5A]

/-- The frame V9b, one bit of V9 flipped. -/
def frameV9b : List Byte := [0xAE, 0x0D, 0xD3, 0x1C, 0x07, 0xE3, 0x10, 0xA7, 0x83, 0x52, 0xC6, 0xCE, 0x17, 0x8C, 0x5A]

/-- The frame V3 (and V21, V24, V26), authentic. -/
def frameV3 : List Byte := [0x01, 0x02, 0x03, 0x04, 0x05, 0x06, 0x07, 0x08, 0x09, 0x0A, 0x0B, 0x0C, 0x0D, 0x2A, 0x0F]

/-- A field of the next state, if there is one. -/
def after {α : Type} (o : Host.Outcome State Fault Refusal) (f : State → α) : Option α :=
  match o with
  | .next s => some (f s)
  | .fault _ => none
  | .refused _ => none

/-- The bytes 0 to n - 1 of an array. -/
def bytesOf (m : Memory) (n : Nat) : List Byte := (List.range n).map m.read

/-- BYTE and RK set, for the rounds of B3. -/
def atRound (byte rk : Byte) : State := { at15 tableZero [] with work.byte := byte, work.rk := rk }

/-- BUTTONS set, for the queries of B7. -/
def withButtons (b : Mask24) : State := { at15 tableZero [] with gun.buttons := b }

/-- The events waiting and the transport's answers. -/
def withInput (s : State) (e : Event) (armOk : Bool) : State :=
  { s with ports.inbox := [.event e { resourceOk := true, sendOk := true, armOk := armOk }] }

/-! ### WellFormed refuses a form whose operand spells another operation (30_encoding R103) -/

theorem test_subp_05_ill_formed : (Instr.subp 0x05).wellFormed = false := by decide
theorem test_addp_10_ill_formed : (Instr.addp 0x10).wellFormed = false := by decide
theorem test_xorp_05_ill_formed : (Instr.xorp 0x05).wellFormed = false := by decide

/-! ### Decoding: words written out from 30_encoding R91, R98 and R103 -/

theorem test_decode_subp : decodeBytes [0b00010000] = .ok (.subp 0x10) := by decide
theorem test_decode_addp : decodeBytes [0b00000101] = .ok (.addp 0x05) := by decide
theorem test_decode_xorp_op2 : decodeBytes [0b00001010] = .ok (.xorp 0x0A) := by decide
theorem test_decode_xorp_op3 : decodeBytes [0b11111111] = .ok (.xorp 0xFF) := by decide
theorem test_decode_trigger : decodeBytes [0x00, 0b00100000, 0x00] = .ok .btnqTrigger := by decide
theorem test_decode_a1 : decodeBytes [0b00000100, 0x00, 0x00] = .ok .btnqA1 := by decide
theorem test_decode_a2 : decodeBytes [0b00000010, 0x00, 0x00] = .ok .btnqA2 := by decide
theorem test_decode_a3 : decodeBytes [0x00, 0x00, 0b10000000] = .ok .btnqA3 := by decide
theorem test_decode_b1 : decodeBytes [0x00, 0b00000100, 0x00] = .ok .btnqB1 := by decide
theorem test_decode_b2 : decodeBytes [0x00, 0b00000010, 0x00] = .ok .btnqB2 := by decide
theorem test_decode_b3 : decodeBytes [0x00, 0x00, 0b01000000] = .ok .btnqB3 := by decide
theorem test_decode_c1 : decodeBytes [0x00, 0b10000000, 0x00] = .ok .btnqC1 := by decide
theorem test_decode_c2 : decodeBytes [0b00001000, 0x00, 0x00] = .ok .btnqC2 := by decide
theorem test_decode_out_of_range : decodeBytes [0x00, 0b00001000, 0x00] = .ok .btnqOutOfRange := by decide
theorem test_decode_one_reference : decodeBytes [0x00, 0b00000001, 0x00] = .ok .btnqOneReference := by decide
theorem test_decode_phases :
    [Phase.lenchk, .auth, .ofsinit, .round, .decbyte 12, .decode, .map, .frame, .keyout].map (fun p => decodeSel (.phase p)) =
      [.ok .lenchk, .ok .auth, .ok .ofsinit, .ok .round, .ok (.decbyte 12), .ok .decode, .ok .map, .ok .frame,
        .ok .keyout] := by decide
/-- Two named bits at once are no query (42_deserializer R188: every mask is one bit). -/
theorem test_decode_two_masks : decodeBytes [0x04, 0x20, 0x00] = .error (.unnamedMask 0x002004) := by decide
theorem test_decode_empty : decodeBytes [] = .error .emptyWord := by decide
theorem test_decode_two_bytes : decodeBytes [0x00, 0x01] = .error (.wrongLength 2) := by decide

/-! ### Rounds: B3, and the worked examples of 41_decoder -/

/-- V18b. -/
theorem test_subp_v18b : after (exec (.subp 0x10) (atRound 0x80 0x24)) (·.work.byte) = some 0x4C := by decide
/-- V18c, two borrows lost. -/
theorem test_subp_v18c : after (exec (.subp 0xFC) (atRound 0x00 0xFF)) (·.work.byte) = some 0x05 := by decide
/-- V18g. -/
theorem test_addp_v18g : after (exec (.addp 0x05) (atRound 0x4C 0x32)) (·.work.byte) = some 0x83 := by decide
/-- V18f, two carries lost. -/
theorem test_addp_v18f : after (exec (.addp 0xFD) (atRound 0xFF 0xFF)) (·.work.byte) = some 0xFB := by decide
/-- V18i. -/
theorem test_xorp_v18i : after (exec (.xorp 0x0A) (atRound 0x83 0x6F)) (·.work.byte) = some 0xE6 := by decide
/-- V18k, op = 3 and TB = RK. -/
theorem test_xorp_v18k : after (exec (.xorp 0x03) (atRound 0xAA 0x03)) (·.work.byte) = some 0xAA := by decide

/-- Round 5 of the trace of V26: T_LCG, OFS 84 to 83, index 148, TB 6F, KIDX 7 (RK 21), BYTE 66 to 28. -/
theorem test_round_v26_5 :
    after (exec .round { at15 tableLcg [] with work.ofs := 84, work.kidx := 7, work.byte := 0x66 })
      (fun u => (u.work.ofs, u.work.tb, u.work.op, u.work.rk, u.work.kidx, u.work.byte)) =
      some (83, 0x6F, 3, 0x21, 6, 0x28) := by decide +kernel
/-- Round 1 of P2: OFS 0 to -1, index 64; here with T_ID, T[64] = 0x40, a SUBP: 0xFF - 0x40 - 0x24. -/
theorem test_round_negative_offset :
    after (exec .round { at15 tableId [] with work.ofs := 0, work.kidx := 4, work.byte := 0xFF })
      (fun u => (u.work.ofs, u.work.tb, u.work.kidx, u.work.byte)) = some (-1, 0x40, 3, 0x9B) := by decide +kernel

/-- DECBYTE 12 of V26: rounds 1 to 3 take 0D to EE; OFS 88 to 85, KIDX 4 to 1. -/
theorem test_decbyte_v26 :
    after (exec (.decbyte 12) { at15 tableLcg frameV3 with work.ofs := 88, work.kidx := 4 })
      (fun u => (u.dec.read 12, u.work.ofs, u.work.kidx)) = some (0xEE, 85, 1) := by decide +kernel

/-! ### The decoder: B2 and B4 -/

/-- V11: salt E7 gives offset 0. -/
theorem test_ofsinit_v11 :
    after (exec .ofsinit (at15 tableZero (List.replicate 14 0 ++ [0xE7]))) (·.work.ofs) = some 0 := by decide +kernel
/-- V12: salt E4 gives offset 255. -/
theorem test_ofsinit_v12 :
    after (exec .ofsinit (at15 tableZero (List.replicate 14 0 ++ [0xE4]))) (·.work.ofs) = some 255 := by decide +kernel
/-- V26. -/
theorem test_decode_v26 :
    after (exec .decode (at15 tableLcg frameV3)) (fun u => (bytesOf u.dec 13, u.work.ofs, u.work.kidx)) =
      some ([0xD0, 0x8C, 0xC7, 0xBB, 0x33, 0xC0, 0x49, 0xBE, 0x3C, 0xE9, 0x85, 0x75, 0xEE], 49, 7) := by decide +kernel
/-- V25: OFS0 = 0, the lowest indices. -/
theorem test_decode_v25 :
    after (exec .decode (at15 tableId
        [0x10, 0x20, 0x30, 0x40, 0x50, 0x60, 0x70, 0x80, 0x90, 0xA0, 0xB0, 0xC0, 0xD0, 0x00, 0xE7]))
      (fun u => (bytesOf u.dec 13, u.work.ofs)) =
      some ([0xBE, 0x97, 0x6F, 0x6C, 0x21, 0x0F, 0x37, 0x79, 0x00, 0x32, 0xDD, 0x9E, 0x30], -39) := by decide +kernel
/-- V45: the encoder's frame. -/
theorem test_encode_v45 :
    encodeFrame (at15 tableLcg []).par (fun i => BitVec.ofNat 8 (i + 1)) 0x5A =
      [0xAB, 0x13, 0xD4, 0xEC, 0x1C, 0xF5, 0x18, 0x45, 0x27, 0xCC, 0x5A, 0xD2, 0x85, 0x8B, 0x5A] := by decide +kernel

/-! ### The authenticator: B1 -/

/-- V9b: one bit of RAW[5] flipped. -/
theorem test_auth_v9b :
    after (exec .auth (at15 tableZero frameV9b)) (fun u => (u.work.sb, u.work.sa, u.work.authOk)) =
      some (0xFD, 0x51, false) := by decide +kernel
/-- V3 under the conventional order: b = 0x33, a = 0x27 (and under the chain order 0x23, 0x21, authentic). -/
theorem test_auth_v3_both_orders :
    (after (exec .auth (at15 tableZero frameV3)) fun u => (u.work.sb, u.work.sa, u.work.authOk)) =
      some (0x23, 0x21, true) ∧
    (after (exec .auth { at15 tableZero frameV3 with
        par := { Config.params with table := tableZero, chkOrder := .conventional } })
      fun u => (u.work.sb, u.work.sa, u.work.authOk)) = some (0x33, 0x27, false) := by decide +kernel

/-! ### The de-serializer: B6, B7, B8 -/

/-- V50. -/
theorem test_map_v50 :
    let o := exec .map { at15 tableZero [] with
      dec := Memory.ofBytes [0x04, 0x20, 0x00, 0x34, 0x12, 0x00, 0xFF, 0xAA, 0x55, 0x80, 0x7F, 0x00, 0xFF] }
    after o (fun u => (u.gun.aimX.toInt, u.gun.aimY.toInt, u.gun.buttons)) = some (4660, 256, 0x002004) ∧
    after o (fun u => [u.gun.saX, u.gun.saY, u.gun.sbX, u.gun.sbY]) = some [0x80, 0x7F, 0x00, 0xFF] := by
  decide +kernel
/-- V54: raw Y = -32768, at the default of AIMY_AT_MIN. -/
theorem test_map_v54 :
    after (exec .map { at15 tableZero [] with
        dec := Memory.ofBytes [0x0E, 0xAF, 0xC0, 0xFF, 0x7F, 0x00, 0x80, 0x00, 0x00, 0x01, 0x02, 0x03, 0x04] })
      (fun u => (u.gun.aimX.toInt, u.gun.aimY.toInt, u.gun.buttons)) = some (32767, -32768, 0xC0AF0E) := by decide +kernel

/-- The answers of the eleven queries, in the order of `Button.all`. -/
def answersFor (b : Mask24) : List (Option Bool) :=
  Button.all.map fun q => after (exec q.query (withButtons b)) (·.ports.answer)

/-- V60: trigger and A1. -/
theorem test_btnq_v60 :
    answersFor 0x002004 =
      [true, true, false, false, false, false, false, false, false, false, false].map some := by decide
/-- V61: all eleven. -/
theorem test_btnq_v61 : answersFor 0xC0AF0E = List.replicate 11 (some true) := by decide
/-- V62: none. -/
theorem test_btnq_v62 : answersFor 0x3F50F1 = List.replicate 11 (some false) := by decide
/-- V64: A3 and C2. -/
theorem test_btnq_v64 :
    answersFor 0x800008 =
      [false, false, false, true, false, false, false, false, true, false, false].map some := by decide
/-- V65: B3, C1, B1 and out-of-range. -/
theorem test_btnq_v65 :
    answersFor 0x408C00 =
      [false, false, false, false, true, false, true, true, false, true, false].map some := by decide
/-- V63: B2 only. -/
theorem test_btnq_v63 :
    answersFor 0x030201 =
      [false, false, false, false, false, true, false, false, false, false, false].map some := by decide

/-- V71: sixteen bytes raise MalformedLength(16). -/
theorem test_lenchk_16 :
    after (exec .lenchk (at15 tableLcg (frameV9 ++ [0x00]))) (·.ports.raised) = some (some (.malformedLength 16)) := by
  decide +kernel
theorem test_lenchk_15 : after (exec .lenchk (at15 tableLcg frameV9)) (·.ports.raised) = some none := by decide +kernel

/-! ### FRAME and KEYOUT: V73, V74, V80 and P3 -/

/-- The output of V73. -/
def gunV73 : GunInputState where
  aimX    := 4660
  aimY    := 256
  saX     := 128
  saY     := 127
  sbX     := 0
  sbY     := 255
  buttons := 0x002004

/-- V73: an update with V50's values and its controls, one marker, then the re-arm. -/
theorem test_frame_v73 :
    after (exec .frame (at15 tableLcg frameV9)) (fun u => (u.ports.outbox, u.pipe.req, u.pipe.pstate)) =
      some
        ([.update
            { gun := gunV73
              controls :=
                [(.trigger, true), (.a1, true), (.a2, false), (.a3, false), (.b1, false), (.b2, false), (.b3, false),
                  (.c1, false), (.c2, false), (.outOfRange, false), (.oneReference, false)] },
          .marker, .armRequest],
        .inFlight, .streaming) := by decide +kernel
/-- V74: nothing emitted, re-arm, still Streaming. -/
theorem test_frame_v74 :
    after (exec .frame (at15 tableLcg frameV9b)) (fun u => (u.ports.outbox, u.pipe.req, u.pipe.pstate, u.ports.raised)) =
      some ([.armRequest], .inFlight, .streaming, some .authenticationFailure) := by decide +kernel

/-- V80. -/
theorem test_keyout_v80 :
    after (exec .keyout (at15 tableZero [])) (·.ports.outbox) =
      some [.keyWrite [0x01, 0x12, 0x6F, 0x32, 0x24, 0x60, 0x17, 0x21]] := by decide +kernel
/-- V81, `abort`: the open ends in Closed. -/
theorem test_keyout_abort :
    after (exec .keyout { at15 tableZero [] with
        par := { Config.params with table := tableZero, failPolicy := .abort }
        pipe.pstate := .opening
        ports.answers := { resourceOk := true, sendOk := false, armOk := true } }) (·.pipe.pstate) =
      some .closed := by decide +kernel

/-! ### The step: P6, piece by piece -/

/-- From reset nothing happens until an `open` request arrives (70_reset R294). -/
theorem test_reset_idle : after (step State.reset) (·.pipe.pstate) = some .closed := by decide +kernel
/-- The word placed for the next step runs there: BTNQ of the trigger bit set in BUTTONS. -/
theorem test_step_runs_placed_word :
    after (step ((withButtons 0x002000).withFetchWord 24 0x002000)) (·.ports.answer) = some true := by decide +kernel
/-- A `suspend` while Streaming cancels the request and holds LOCK. -/
theorem test_step_suspend :
    after (step (withInput { at15 tableZero [] with pipe.req := .inFlight } .suspendReq true))
      (fun u => (u.ports.outbox, u.pipe.lock, u.pipe.wasStreaming)) = some ([.cancelRequest], .held, true) := by
  decide +kernel
/-- A transient error whose re-arm fails closes the pipeline (43_pipeline R219). -/
theorem test_step_transient_fatal :
    after (step (withInput { at15 tableZero [] with pipe.req := .inFlight } .transient false))
      (fun u => (u.ports.outbox, u.pipe.pstate, u.pipe.req)) =
      some ([.armRequest, .errorReport .armFailed], .closed, .none) := by decide +kernel

/-- A terminal shutdown closes the pipeline and is passed upward (43_pipeline R218, 60_exceptions R264). -/
theorem test_step_shutdown :
    after (step (withInput { at15 tableZero [] with pipe.req := .inFlight } .shutdown true))
      (fun u => (u.ports.outbox, u.pipe.pstate, u.pipe.req)) =
      some ([.errorReport .transportShutdown], .closed, .none) := by decide +kernel

/-! ### Witnesses: for every obligation with hypotheses, values that meet all of them together

One theorem for each, named after the obligation; where an obligation has several clauses, one witness for each clause,
at a boundary of its range. -/

theorem after_eq {α : Type} {o : Host.Outcome State Fault Refusal} {f : State → α} {v : α} (h : after o f = some v) :
    ∃ u, o = .next u ∧ f u = v := by
  cases o with
  | next u => exact ⟨u, rfl, Option.some.inj h⟩
  | fault _ => cases h
  | refused _ => cases h

/-- An outcome that answers a next state. -/
theorem answers_next {o : Host.Outcome State Fault Refusal} (h : after o (fun _ => ()) = some ()) : ∃ u, o = .next u :=
  (after_eq h).imp fun _ h => h.1

/-- T_LCG, the frame V9, a request in flight. -/
def live : State := { at15 tableLcg frameV9 with pipe.req := .inFlight }

/-- Suspended while it was Streaming. -/
def asleep : State := { at15 tableLcg [] with pipe.pstate := .suspended, pipe.wasStreaming := true }

/-- Closed. -/
def shut : State := { at15 tableLcg [] with pipe.pstate := .closed }

/-- All requests granted. -/
def granted : Answers := { resourceOk := true, sendOk := true, armOk := true }

/-- Inputs waiting. -/
def waiting (s : State) (is : List Input) : State := { s with ports.inbox := is }

theorem witness_EncodedOperationDecodesToItself :
    (Instr.subp 0xFC).wellFormed ∧ (Instr.addp 0xFD).wellFormed ∧ (Instr.xorp 0xFE).wellFormed ∧
      (Instr.xorp 0xFF).wellFormed ∧ (Instr.decbyte 12).wellFormed := by decide

theorem witness_DecodedSelectionIsTheEncoders :
    decodeSel (.word [0xFF]) = .ok (.xorp 0xFF) ∧ decodeSel (.word [0x00, 0x00, 0x80]) = .ok .btnqA3 := by decide

theorem witness_TableByteSelectsOneOperation :
    (0x00 : Byte).toNat % 4 = 0 ∧ (0xFC : Byte).toNat % 4 = 0 ∧ (0xFD : Byte).toNat % 4 = 1 ∧
      (0xFE : Byte).toNat % 4 = 2 ∧ (0xFF : Byte).toNat % 4 = 3 ∧ decodeBytes [0xFC] = .ok (.subp 0xFC) ∧
      decodeBytes [0xFD] = .ok (.addp 0xFD) ∧ decodeBytes [0xFE] = .ok (.xorp 0xFE) := by decide

theorem witness_SubpSubtractsPairModulo256 : (0xFC : Byte).toNat % 4 = 0 := by decide
theorem witness_AddpAddsPairModulo256 : (0xFD : Byte).toNat % 4 = 1 := by decide
theorem witness_XorpXorsPair :
    (0xFE : Byte).toNat % 4 = 2 ∧ (0xFF : Byte).toNat % 4 = 3 ∧ (0x03 : Byte) = (atRound 0xAA 0x03).work.rk := by decide

/-- At the lowest and the highest table index, with the key index about to wrap and not. -/
theorem witness_RoundFetchesRotatesAndDispatches :
    (let s : State := { at15 tableLcg [] with work.ofs := -64, work.kidx := 1 }
     0 ≤ s.work.ofs - 1 + 0x41 ∧ s.work.ofs - 1 + 0x41 < 320 ∧ s.work.kidx ≠ 0) ∧
    (let s : State := { at15 tableLcg [] with work.ofs := 255, work.kidx := 7 }
     0 ≤ s.work.ofs - 1 + 0x41 ∧ s.work.ofs - 1 + 0x41 < 320 ∧ s.work.kidx ≠ 0) := by decide

theorem witness_RoundRunsTheDecodedTableByte :
    let s : State := { at15 tableLcg [] with work.ofs := 255 }
    tableAt s.par (s.work.ofs + 64) = some 0x26 ∧ decodeBytes [0x26] = .ok (.xorp 0x26) := by decide +kernel

/-- One below and one above the table, for ROUND and for DECBYTE. -/
theorem witness_RoundAndDecbyteStopExactlyOutsideTheTable :
    after (exec .round { at15 tableLcg [] with work.ofs := -65 }) (fun _ => ()) = none ∧
    after (exec .round { at15 tableLcg [] with work.ofs := 256 }) (fun _ => ()) = none ∧
    after (exec (.decbyte 0) { at15 tableLcg [] with work.ofs := -63 }) (fun _ => ()) = none ∧
    after (exec (.decbyte 0) { at15 tableLcg [] with work.ofs := 256 }) (fun _ => ()) = none := by decide +kernel

theorem witness_DecbyteRunsThreeRoundsOnOneByte :
    let s : State := { at15 tableLcg frameV9 with work.ofs := -62 }
    Memory.wf decSize s.dec = true ∧ tableAt s.par (s.work.ofs + 64) = some 0x55 ∧
      tableAt s.par (s.work.ofs + 63) = some 0x30 ∧ tableAt s.par (s.work.ofs + 62) = some 0x0B := by decide +kernel

theorem witness_EverySaltHasItsOwnOffset : Memory.wf rawSize live.raw = true ∧ 255 < 256 := by decide +kernel

theorem witness_DecodeIsItsPhasesInOrder : ∃ t, exec .ofsinit live = .next t := ⟨_, rfl⟩

theorem witness_DecodeFollowsTheClosedSchedule :
    Memory.wf decSize live.dec = true ∧ ∃ u, exec .decode live = .next u :=
  ⟨by decide +kernel, answers_next (by decide +kernel)⟩

/-- Two states that differ in RAW[13], in K[0] and in the working registers. -/
theorem witness_DecodeDependsOnNothingElse :
    let s := live
    let t : State := { live with
      raw := live.raw.write 13 0
      par := { live.par with key := #v[0xFF, 0x12, 0x6F, 0x32, 0x24, 0x60, 0x17, 0x21] }
      work.ofs := 7 }
    (Memory.wf decSize s.dec = true ∧ Memory.wf decSize t.dec = true ∧ (∀ j, j < 13 → s.raw.read j = t.raw.read j) ∧
      s.raw.read 14 = t.raw.read 14 ∧ (∀ j : BitVec 3, j ≠ 0 → keyAt s.par j = keyAt t.par j) ∧
      s.par.table = t.par.table) ∧
    (∃ u, exec .decode s = .next u) ∧ ∃ v, exec .decode t = .next v :=
  ⟨by decide +kernel, answers_next (by decide +kernel), answers_next (by decide +kernel)⟩

theorem witness_PayloadByteReachesOneDecodedByte :
    (Memory.wf rawSize live.raw = true ∧ Memory.wf decSize live.dec = true) ∧ (∃ u, exec .decode live = .next u) ∧
      ∃ v, exec .decode { live with raw := live.raw.write (12 : Fin 13).val 0 } = .next v :=
  ⟨by decide +kernel, answers_next (by decide +kernel), answers_next (by decide +kernel)⟩

theorem witness_EncodedFrameAuthenticatesAndDecodes :
    Memory.wf decSize live.dec = true ∧ live.par.chkOrder = .chain := by decide

theorem witness_AuthFoldsFourteenBytes :
    live.par.chkOrder = .chain ∧
      ({ live with par := { live.par with chkOrder := .conventional } } : State).par.chkOrder = .conventional := by decide

/-- Two states that differ in the salt and in K[1]. -/
theorem witness_VerdictIgnoresSaltAndOtherKeyBytes :
    let t : State := { live with
      raw := live.raw.write 14 0
      par := { live.par with key := #v[0x01, 0xFF, 0x6F, 0x32, 0x24, 0x60, 0x17, 0x21] } }
    ((∀ j, j < 14 → live.raw.read j = t.raw.read j) ∧ keyAt live.par 7 = keyAt t.par 7 ∧
      live.par.chkOrder = t.par.chkOrder) ∧
    (∃ u, exec .auth live = .next u) ∧ ∃ v, exec .auth t = .next v :=
  ⟨by decide +kernel, ⟨_, rfl⟩, ⟨_, rfl⟩⟩

/-- The last covered byte; the frame is authentic before the change. -/
theorem witness_EverySingleByteChangeIsDetected :
    (Memory.wf rawSize live.raw = true ∧ 13 < 14 ∧ (0x8D : Byte) ≠ live.raw.read 13) ∧
    (∃ u, exec .auth live = .next u ∧ u.work.authOk = true) ∧
      ∃ v, exec .auth { live with raw := live.raw.write 13 0x8D } = .next v :=
  ⟨by decide +kernel, after_eq (by decide +kernel), ⟨_, rfl⟩⟩

theorem witness_BalanceIsTheOneAuthenticByte :
    (Memory.wf rawSize live.raw = true ∧ live.par.chkOrder = .chain) ∧
      ∃ u, exec .auth { live with raw := live.raw.write 13 0x8C } = .next u ∧ u.work.authOk = true :=
  ⟨by decide +kernel, after_eq (by decide +kernel)⟩

theorem witness_LenchkPassesExactlyFifteen :
    live.delivered.length = 15 ∧ (at15 tableLcg []).delivered.length ≠ 15 ∧
      (at15 tableLcg (frameV9 ++ [0])).delivered.length ≠ 15 := by decide

/-- The raw Y one above the least, and the least. -/
theorem witness_MapNegatesAimY :
    (let s : State := { live with dec := Memory.ofBytes [0, 0, 0, 0, 0, 0x01, 0x80] }
     (∃ u, exec .map s = .next u) ∧ (halfOf (s.dec.read 5) (s.dec.read 6)).toInt ≠ -32768) ∧
    (let s : State := { live with dec := Memory.ofBytes [0, 0, 0, 0, 0, 0x00, 0x80] }
     (∃ u, exec .map s = .next u) ∧ (halfOf (s.dec.read 5) (s.dec.read 6)).toInt = -32768) :=
  ⟨⟨⟨_, rfl⟩, by decide +kernel⟩, ⟨_, rfl⟩, by decide +kernel⟩

theorem witness_MapIgnoresBytesSevenAndEight :
    let s : State := { live with dec := Memory.ofBytes frameV3 }
    let t : State := { s with dec := (s.dec.write 7 0xAA).write 8 0x55, gun.aimX := 1 }
    (s.par = t.par ∧ ∀ j, j < 13 → j ≠ 7 → j ≠ 8 → s.dec.read j = t.dec.read j) ∧
    (∃ u, exec .map s = .next u) ∧ ∃ v, exec .map t = .next v :=
  ⟨⟨rfl, by decide +kernel⟩, ⟨_, rfl⟩, ⟨_, rfl⟩⟩

/-- Lengths 14 and 16. -/
theorem witness_FrameDropsWrongLength :
    (let s := at15 tableLcg (frameV9.take 14)
     s.pipe.pstate = .streaming ∧ s.delivered.length ≠ 15 ∧ s.ports.answers.armOk = true) ∧
    (let s := at15 tableLcg (frameV9 ++ [0])
     s.pipe.pstate = .streaming ∧ s.delivered.length ≠ 15 ∧ s.ports.answers.armOk = true) := by decide

theorem witness_FrameDropsUnauthentic :
    let s := at15 tableLcg frameV9b
    s.pipe.pstate = .streaming ∧ s.delivered.length = 15 ∧ s.ports.answers.armOk = true ∧
      (let r := fun j => s.delivered.getD j 0
       checksumA s.par.chkOrder r (checksumB s.par.chkOrder r) ≠ keyAt s.par 7) := by decide +kernel

theorem witness_FrameEmitsOneUpdateOfAnAuthenticFrame :
    let s := at15 tableLcg frameV9
    s.pipe.pstate = .streaming ∧ s.delivered.length = 15 ∧ s.ports.answers.armOk = true ∧
      Memory.wf decSize s.dec = true ∧
      (let r := fun j => s.delivered.getD j 0
       checksumA s.par.chkOrder r (checksumB s.par.chkOrder r) = keyAt s.par 7) := by decide +kernel

theorem witness_FrameRearmsOnEveryPath :
    (at15 tableLcg frameV9).pipe.pstate = .streaming ∧ (at15 tableLcg frameV9).ports.answers.armOk = true ∧
      ({ at15 tableLcg frameV9 with ports.answers := { granted with armOk := false } } : State).ports.answers.armOk =
        false := by decide

theorem witness_FrameForgetsEarlierFrames :
    let s := at15 tableLcg frameV9
    let r := Memory.ofBytes frameV3
    let w : Work := { s.work with ofs := 216, kidx := 7, authOk := true }
    (s.delivered.length = 15 ∧ s.pipe.pstate = .streaming ∧ Memory.wf decSize s.dec = true ∧
      Memory.wf decSize ([(12, 0xFF)] : Memory) = true) ∧
    (∃ u, exec .frame s = .next u ∧ u.work.authOk = true) ∧
      ∃ v, exec .frame { s with raw := r, dec := [(12, 0xFF)], work := w } = .next v :=
  ⟨by decide +kernel, after_eq (by decide +kernel), answers_next (by decide +kernel)⟩

theorem witness_FrameOutsideStreamingDoesNothing : shut.pipe.pstate ≠ .streaming ∧ asleep.pipe.pstate ≠ .streaming := by
  decide

theorem witness_KeyoutSendsTheEightKeyBytes : live.ports.answers.sendOk = true := by decide

/-- A failed write under each policy. -/
theorem witness_FailedHandshakeFollowsThePolicy :
    let s : State := { shut with ports.answers := { granted with sendOk := false } }
    let t : State := { s with par := { s.par with failPolicy := .abort } }
    (s.ports.answers.sendOk = false ∧ s.par.failPolicy = .proceed) ∧
      t.ports.answers.sendOk = false ∧ t.par.failPolicy = .abort := by decide

theorem witness_StepRunsTheSelectedOperation :
    (State.reset.withFetchWord 8 0x10).ports.seq = [.op (.word [0x10])] ∧ decodeSel (.word [0x10]) = .ok (.subp 0x10) ∧
    (State.reset.withFetchWord 24 0x002004).ports.seq = [.op (.word [0x04, 0x20, 0x00])] ∧
      decodeSel (.word [0x04, 0x20, 0x00]) = .error (.unnamedMask 0x002004) := by decide

theorem witness_IdleStepChangesNothing : State.reset.ports.seq = [] ∧ State.reset.ports.inbox = [] := by decide

theorem witness_KeyMaterialIsNeverMutated :
    (∃ u, exec .auth live = .next u) ∧ ∃ u, step State.reset = .next u := ⟨⟨_, rfl⟩, _, rfl⟩

/-- At reset, and with a frame about to run. -/
theorem witness_EveryStepKeepsSound :
    (Sound State.reset ∧ ∃ u, step State.reset = .next u) ∧
    (let s : State := { at15 tableLcg frameV9 with ports.seq := [.op (.phase .frame)] }
     Sound s ∧ ∃ u, step s = .next u) :=
  ⟨⟨by unfold Sound; decide, _, rfl⟩, by unfold Sound; decide +kernel, answers_next (by decide +kernel)⟩

theorem witness_SoundStepAlwaysAnswersNext : Sound State.reset := by unfold Sound; decide

theorem witness_OutputsAreOnlyAppended : ∃ u, step State.reset = .next u := ⟨_, rfl⟩

theorem witness_OnlyAuthenticFramesReachTheOutput :
    let s : State := { at15 tableLcg frameV9 with ports.seq := [.op (.phase .frame)] }
    ∃ u new g, step s = .next u ∧ u.ports.outbox = s.ports.outbox ++ new ∧ Output.update g ∈ new := by
  obtain ⟨u, hu, ho⟩ := after_eq (o := exec .frame (at15 tableLcg frameV9)) (f := fun u => u.ports.outbox)
    (v := [Output.update (updateOf gunV73), .marker, .armRequest]) (by decide +kernel)
  exact ⟨u, _, _, hu, ho, List.mem_cons_self⟩

/-- Each register changes somewhere under one of its writers. Under the operations: MAP the outputs, AUTH the accumulators
and the verdict, ROUND and DECBYTE the decoder's registers, DECODE DEC, FRAME RAW, PSTATE and REQ, KEYOUT HANDSHAKE_SENT,
LOCK and PSTATE. -/
theorem witness_EachRegisterHasItsWriters :
    let s : State := { at15 tableLcg frameV9 with raw := [], dec := Memory.ofBytes frameV3 }
    let r : State := { at15 tableLcg frameV9 with work.ofs := 84, work.kidx := 7, work.byte := 0x66 }
    let k : State := { live with
      par := { live.par with failPolicy := .abort }
      pipe.pstate := .opening, pipe.lock := .held, ports.answers := { granted with sendOk := false } }
    (∃ u, exec .map s = .next u ∧ (u.gun != s.gun) = true) ∧
    (∃ u, exec .auth live = .next u ∧
      (u.work.sb != live.work.sb, u.work.sa != live.work.sa, u.work.authOk != live.work.authOk) = (true, true, true)) ∧
    (∃ u, exec .round r = .next u ∧
      [u.work.ofs != 84, u.work.kidx != 7, u.work.byte != 0x66, u.work.tb != 0, u.work.rk != 0, u.work.op != 0] =
        List.replicate 6 true) ∧
    (∃ u, exec (.decbyte 12) r = .next u ∧ (u.work.i != r.work.i, u.work.rnd != r.work.rnd) = (true, true)) ∧
    (∃ u, exec .decode s = .next u ∧ (u.dec != s.dec) = true) ∧
    (∃ u, exec .frame { s with ports.answers := { granted with armOk := false }, pipe.req := .inFlight } = .next u ∧
      (u.raw != s.raw, u.pipe.pstate, u.pipe.req) = (true, .closed, .none)) ∧
    (∃ u, exec .keyout k = .next u ∧ (u.pipe.pstate, u.pipe.lock, u.pipe.handshakeSent) = (.closed, .free, true)) :=
  ⟨after_eq (by decide +kernel), after_eq (by decide +kernel), after_eq (by decide +kernel), after_eq (by decide +kernel),
    after_eq (by decide +kernel), after_eq (by decide +kernel), after_eq (by decide +kernel)⟩

/-- And under the steps: a FRAME the codec's registers, a delivery LEN and REQ, a suspend WAS_STREAMING and LOCK, an open HANDSHAKE_SENT and PSTATE, the
end of a close PSTATE and LOCK. -/
theorem witness_EachRegisterHasItsWriters_steps :
    let o : State := { shut with pipe.handshakeSent := true }
    let f : State := { at15 tableLcg frameV9 with raw := [], ports.seq := [.op (.phase .frame)] }
    (∃ u, step f = .next u ∧
      (u.gun != f.gun, u.work != f.work, u.raw != f.raw, u.dec != f.dec) = (true, true, true, true)) ∧
    (∃ u, step (waiting live [.event (.data frameV3) granted]) = .next u ∧
      (u.delivered != live.delivered, u.pipe.req) = (true, .none)) ∧
    (∃ u, step (waiting live [.event .suspendReq granted]) = .next u ∧
      (u.pipe.wasStreaming, u.pipe.lock) = (true, .held)) ∧
    (∃ u, step (waiting o [.event .openReq granted]) = .next u ∧
      (u.pipe.handshakeSent, u.pipe.pstate) = (false, .opening)) ∧
    (∃ u, step { live with pipe.pstate := .closing, pipe.lock := .held, ports.seq := [.closeDone] } = .next u ∧
      (u.pipe.pstate, u.pipe.lock) = (.closed, .free)) :=
  ⟨after_eq (by decide +kernel), after_eq (by decide +kernel), after_eq (by decide +kernel), after_eq (by decide +kernel),
    after_eq (by decide +kernel)⟩

/-- The handshake written, and its write failed under `proceed`. -/
theorem witness_OpenEndsStreaming :
    let meets (s : State) (a : Answers) : Prop :=
      s.ports.seq = [] ∧ s.ports.inbox = [.event .openReq a] ∧ s.pipe.pstate = .closed ∧ s.pipe.lock = .free ∧
        a.resourceOk = true ∧ (a.sendOk = true ∨ s.par.failPolicy = .proceed) ∧ a.armOk = true
    let b : Answers := { granted with sendOk := false }
    meets (waiting shut [.event .openReq granted]) granted ∧ meets (waiting shut [.event .openReq b]) b := by decide

/-- No resource; a write that fails under `abort`; a first arming that fails, after a write that succeeded and after one
that failed under `proceed`. -/
theorem witness_OpenFailureEndsClosed :
    let meets (s : State) (a : Answers) : Prop :=
      s.ports.seq = [] ∧ s.ports.inbox = [.event .openReq a] ∧ s.pipe.pstate = .closed ∧ s.pipe.lock = .free ∧
        s.pipe.req = .none
    let a : Answers := { granted with resourceOk := false }
    let b : Answers := { granted with sendOk := false }
    let c : Answers := { granted with armOk := false }
    let d : Answers := { granted with sendOk := false, armOk := false }
    let strict : State := { shut with par := { shut.par with failPolicy := .abort } }
    (meets (waiting shut [.event .openReq a]) a ∧ a.resourceOk = false) ∧
    (meets (waiting strict [.event .openReq b]) b ∧ b.resourceOk = true ∧ b.sendOk = false ∧
      strict.par.failPolicy = .abort) ∧
    (meets (waiting strict [.event .openReq c]) c ∧ c.resourceOk = true ∧ c.sendOk = true ∧ c.armOk = false) ∧
    (meets (waiting shut [.event .openReq d]) d ∧ d.resourceOk = true ∧ shut.par.failPolicy = .proceed ∧
      d.armOk = false) := by decide

theorem witness_DataCompletionRunsFrame :
    let s := waiting live [.event (.data frameV3) granted]
    s.ports.seq = [] ∧ s.ports.inbox = [.event (.data frameV3) granted] ∧ s.pipe.pstate = .streaming ∧
      s.pipe.req = .inFlight := by decide

theorem witness_TimeoutChangesNothing :
    let s := waiting live [.event .timeout granted]
    s.ports.seq = [] ∧ s.ports.inbox = [.event .timeout granted] ∧ s.pipe.pstate = .streaming ∧
      s.pipe.req = .inFlight := by decide

theorem witness_ShutdownClosesDirectly :
    let s := waiting live [.event .shutdown granted]
    s.ports.seq = [] ∧ s.ports.inbox = [.event .shutdown granted] ∧ s.pipe.pstate = .streaming ∧
      s.pipe.req = .inFlight := by decide

/-- The re-arm granted, and failed. -/
theorem witness_TransientErrorRearmsOnce :
    let a : Answers := { granted with armOk := false }
    let s := waiting live [.event .transient granted]
    let t := waiting live [.event .transient a]
    (s.ports.seq = [] ∧ s.ports.inbox = [.event .transient granted] ∧ s.pipe.pstate = .streaming ∧
      s.pipe.req = .inFlight ∧ granted.armOk = true) ∧
    t.ports.seq = [] ∧ t.ports.inbox = [.event .transient a] ∧ t.pipe.pstate = .streaming ∧ t.pipe.req = .inFlight ∧
      a.armOk = false := by decide

theorem witness_SuspendCancelsThenAcknowledges :
    let s := waiting live [.event .suspendReq granted]
    s.ports.seq = [] ∧ s.ports.inbox = [.event .suspendReq granted] ∧ s.pipe.pstate = .streaming ∧
      s.pipe.req = .inFlight ∧ s.pipe.lock = .free := by decide

/-- With WAS_STREAMING, and without. -/
theorem witness_ResumeRearmsOnlyIfWasStreaming :
    let s := waiting asleep [.event .resumeReq granted]
    let t : State := { s with pipe.wasStreaming := false }
    (s.ports.seq = [] ∧ s.ports.inbox = [.event .resumeReq granted] ∧ s.pipe.pstate = .suspended ∧
      s.pipe.lock = .free ∧ s.pipe.wasStreaming = true ∧ granted.armOk = true) ∧
    t.ports.seq = [] ∧ t.ports.inbox = [.event .resumeReq granted] ∧ t.pipe.pstate = .suspended ∧
      t.pipe.lock = .free ∧ t.pipe.wasStreaming = false := by decide

theorem witness_FailedResumeArmEndsClosed :
    let a : Answers := { granted with armOk := false }
    let s := waiting asleep [.event .resumeReq a]
    s.ports.seq = [] ∧ s.ports.inbox = [.event .resumeReq a] ∧ s.pipe.pstate = .suspended ∧ s.pipe.lock = .free ∧
      s.pipe.wasStreaming = true ∧ a.armOk = false := by decide

/-- From Streaming, and from Suspended. -/
theorem witness_CloseCancelsThenCloses :
    let s := waiting live [.event .closeReq granted]
    let t := waiting asleep [.event .closeReq granted]
    (s.ports.seq = [] ∧ s.ports.inbox = [.event .closeReq granted] ∧
      (s.pipe.pstate = .streaming ∨ s.pipe.pstate = .suspended) ∧ s.pipe.lock = .free) ∧
    t.ports.seq = [] ∧ t.ports.inbox = [.event .closeReq granted] ∧
      (t.pipe.pstate = .streaming ∨ t.pipe.pstate = .suspended) ∧ t.pipe.lock = .free := by decide

/-- Each event in a state that does not pair with it. -/
theorem witness_UnpairedEventsChangeNothing :
    (∀ e ∈ [Event.openReq, .closeReq, .resumeReq, .suspendReq, .data frameV9, .timeout, .shutdown, .transient],
      let s := waiting (if e = .openReq then asleep else shut) [.event e granted]
      s.ports.seq = [] ∧ s.ports.inbox = [.event e granted] ∧ s.pipe.lock = .free) ∧
    asleep.pipe.pstate ≠ .closed ∧ shut.pipe.pstate = .closed ∧ shut.pipe.pstate ≠ .suspended ∧
      shut.pipe.pstate ≠ .streaming := by decide

theorem witness_LifecycleTransitionsAreSerialized :
    let s : State := { waiting live [.event .resumeReq granted] with
      pipe.lock := .held, pipe.wasStreaming := true, ports.seq := [.suspendDone] }
    (Sound s ∧ s.pipe.lock = .held) ∧ ∃ u, step s = .next u :=
  ⟨by unfold Sound; decide +kernel, _, rfl⟩

theorem witness_SuspendedProcessesNoFrame :
    let s := waiting asleep [.event (.data frameV9) granted]
    (Sound s ∧ s.pipe.pstate = .suspended) ∧ ∃ u, step s = .next u :=
  ⟨by unfold Sound; decide +kernel, _, rfl⟩

theorem witness_ConsumerQueryAnswersItsBit :
    let s := waiting live [.query .trigger]
    s.ports.seq = [] ∧ s.ports.inbox = [.query .trigger] := by decide

end Sys2Proof.Tests
end

section
/-! The table byte (30_encoding R90, R91): its selector, its match and mask, and the operation it decodes to, each said
in terms of the byte's value modulo 4. -/

namespace Sys2Proof.Proofs

open Sys2Proof.Machine

/-! ### The two low bits -/

theorem selector_toNat (t : Byte) : (selector t).toNat = t.toNat % 4 := by simp [selector]

theorem selector_eq_zero_iff (t : Byte) : selector t = 0 ↔ t.toNat % 4 = 0 := by
  rw [← BitVec.toNat_inj, selector_toNat]; rfl

theorem selector_eq_one_iff (t : Byte) : selector t = 1 ↔ t.toNat % 4 = 1 := by
  rw [← BitVec.toNat_inj, selector_toNat]; rfl

/-- The mask 0x03 of SUBP and ADDP keeps the selector. -/
theorem toNat_and_three (t : Byte) : (t &&& 0x03).toNat = t.toNat % 4 :=
  (BitVec.toNat_and ..).trans (Nat.and_two_pow_sub_one_eq_mod t.toNat 2)

theorem and_three_eq_zero_iff (t : Byte) : t &&& 0x03 = 0x00 ↔ t.toNat % 4 = 0 := by
  rw [← BitVec.toNat_inj, toNat_and_three]; rfl

theorem and_three_eq_one_iff (t : Byte) : t &&& 0x03 = 0x01 ↔ t.toNat % 4 = 1 := by
  rw [← BitVec.toNat_inj, toNat_and_three]; rfl

/-- The mask 0x02 of XORP keeps the selector's high bit. -/
theorem toNat_and_two (t : Byte) : (t &&& 0x02).toNat = t.toNat / 2 % 2 * 2 :=
  (BitVec.toNat_and ..).trans <| by
    rw [show (0x02 : Byte).toNat = 2 ^ 1 from rfl, Nat.and_two_pow, Nat.toNat_testBit, pow_one]

theorem and_two_eq_two_iff (t : Byte) : t &&& 0x02 = 0x02 ↔ t.toNat % 4 = 2 ∨ t.toNat % 4 = 3 := by
  rw [← BitVec.toNat_inj, toNat_and_two, show (0x02 : Byte).toNat = 2 from rfl]
  omega

/-! ### The operation of a table byte -/

theorem decodeTableByte_eq_subp_iff (t : Byte) : decodeTableByte t = .subp t ↔ selector t = 0 := by
  rw [decodeTableByte]
  split_ifs with h0 h1
  · simp [h0]
  · simpa using h0
  · simpa using h0

theorem decodeTableByte_eq_addp_iff (t : Byte) : decodeTableByte t = .addp t ↔ selector t = 1 := by
  rw [decodeTableByte]
  split_ifs with h0 h1
  · simp [h0]
  · simp [h1]
  · simpa using h1

theorem decodeTableByte_eq_xorp_iff (t : Byte) : decodeTableByte t = .xorp t ↔ selector t ≠ 0 ∧ selector t ≠ 1 := by
  rw [decodeTableByte]
  split_ifs with h0 h1
  · simp [h0]
  · simp [h1]
  · simpa using ⟨h0, h1⟩

theorem decodeBytes_tableByte_eq_iff (t : Byte) (i : Instr) : decodeBytes [t] = .ok i ↔ decodeTableByte t = i :=
  iff_of_eq (Except.ok.injEq ..)

theorem decodeBytes_eq_subp_iff (t : Byte) : decodeBytes [t] = .ok (.subp t) ↔ t.toNat % 4 = 0 := by
  rw [decodeBytes_tableByte_eq_iff, decodeTableByte_eq_subp_iff, selector_eq_zero_iff]

theorem decodeBytes_eq_addp_iff (t : Byte) : decodeBytes [t] = .ok (.addp t) ↔ t.toNat % 4 = 1 := by
  rw [decodeBytes_tableByte_eq_iff, decodeTableByte_eq_addp_iff, selector_eq_one_iff]

theorem decodeBytes_eq_xorp_iff (t : Byte) :
    decodeBytes [t] = .ok (.xorp t) ↔ t.toNat % 4 = 2 ∨ t.toNat % 4 = 3 := by
  rw [decodeBytes_tableByte_eq_iff, decodeTableByte_eq_xorp_iff, ne_eq, ne_eq, selector_eq_zero_iff,
    selector_eq_one_iff]
  omega

/-! ### What the operation does (41_decoder R145 to R147) -/

theorem exec_subp (t : Byte) (s : State) : exec (.subp t) s = .next (setByte (s.work.byte - t - s.work.rk) s) := rfl

theorem exec_addp (t : Byte) (s : State) : exec (.addp t) s = .next (setByte (s.work.byte + t + s.work.rk) s) := rfl

theorem exec_xorp (t : Byte) (s : State) : exec (.xorp t) s = .next (setByte (s.work.byte ^^^ t ^^^ s.work.rk) s) :=
  rfl

/-- Settles O3: the byte modulo 4 decides both the decoder's choice and the match and mask of each row. -/
theorem tableByteSelectsOneOperation : Obligations.TableByteSelectsOneOperation := by
  intro t s
  refine ⟨(decodeBytes_eq_subp_iff t).2, (decodeBytes_eq_addp_iff t).2, (decodeBytes_eq_xorp_iff t).2, ?_, ?_, ?_,
    fun _ => exec_subp t s, fun _ => exec_addp t s, fun _ => exec_xorp t s⟩
  · rw [and_three_eq_zero_iff, decodeBytes_eq_subp_iff]
  · rw [and_three_eq_one_iff, decodeBytes_eq_addp_iff]
  · rw [and_two_eq_two_iff, decodeBytes_eq_xorp_iff]

end Sys2Proof.Proofs
end

section
/-! The round operations (41_decoder R144 to R148): SUBP, ADDP and XORP as byte arithmetic, ROUND by the table byte it
fetches, and DECBYTE by its three. -/

namespace Sys2Proof.Proofs

open Sys2Proof.Machine Sys2Proof.Laws

/-! ### SUBP, ADDP, XORP -/

theorem toNat_sub_pair (b t k : Byte) :
    ((b - t - k).toNat : Int) = ((b.toNat : Int) - t.toNat - k.toNat) % 256 := by
  have hb := b.isLt
  have ht := t.isLt
  have hk := k.isLt
  simp only [BitVec.toNat_sub]
  omega

theorem toNat_add_pair (b t k : Byte) : (b + t + k).toNat = (b.toNat + t.toNat + k.toNat) % 256 := by
  simp only [BitVec.toNat_add, Nat.mod_add_mod]

theorem xor_pair_cancel (b t k : Byte) : b ^^^ t ^^^ k ^^^ t ^^^ k = b := by
  rw [BitVec.xor_assoc b t k, BitVec.xor_assoc, BitVec.xor_assoc, BitVec.xor_self, BitVec.xor_zero]

/-- Settles O5: modulo 256 the two differences are one, and adding the pair takes them back. -/
theorem subpSubtractsPairModulo256 : Obligations.SubpSubtractsPairModulo256 := by
  intro t s
  refine ⟨(decodeBytes_eq_subp_iff t).2, _, exec_subp t s, toNat_sub_pair _ _ _, rfl, ?_⟩
  simp only [setByte_work]
  abel

/-- Settles O6: modulo 256 the two sums are one, and subtracting the pair takes them back. -/
theorem addpAddsPairModulo256 : Obligations.AddpAddsPairModulo256 := by
  intro t s
  refine ⟨(decodeBytes_eq_addp_iff t).2, _, exec_addp t s, toNat_add_pair _ _ _, rfl, ?_⟩
  simp only [setByte_work]
  abel

/-- Settles O7: equal operands cancel, and so does the pair taken twice. -/
theorem xorpXorsPair : Obligations.XorpXorsPair := by
  intro t s
  refine ⟨(decodeBytes_eq_xorp_iff t).2, _, exec_xorp t s, fun k => ?_, rfl, fun h => ?_, ?_⟩
  · simp only [setByte_work, BitVec.getLsbD_xor]
  · rw [h, BitVec.xor_assoc, BitVec.xor_self, BitVec.xor_zero]
    rfl
  · rw [exec_xorp]
    exact congrArg (Host.Outcome.next <| setByte · s) (xor_pair_cancel s.work.byte t s.work.rk)

/-! ### ROUND -/

theorem exec_round (s : State) : exec .round s = execRound s := rfl

/-- Every three-bit index reads a byte of the key. -/
theorem key_getElem?_eq_keyAt (p : Params) (j : BitVec 3) : p.key[j.toNat]? = some (keyAt p j) :=
  Vector.getElem?_eq_getElem (by have := j.isLt; omega)

theorem tableAt_of_nonneg (p : Params) {idx : Int} (h : 0 ≤ idx) : tableAt p idx = p.table[idx.toNat]? := if_pos h

/-- The working registers after a round that fetches `t` (41_decoder R144). -/
def roundWork (p : Params) (t : Byte) (w : Work) : Work :=
  { w with
    ofs := w.ofs - 1
    tb := t
    rk := keyAt p w.kidx
    kidx := rotate w.kidx
    op := selector t
    byte := applyTableByte t (keyAt p w.kidx) w.byte }

/-- ROUND by the byte at OFS + 64, which is the index after the decrement: only the working registers change. -/
theorem execRound_eq_roundWork {s : State} {t : Byte} (h : tableAt s.par (s.work.ofs + 64) = some t) :
    execRound s = .next { s with work := roundWork s.par t s.work } :=
  execRound_next (by rwa [tableIndex, show s.work.ofs - 1 + 0x41 = s.work.ofs + 64 by omega])

/-- Settles O8: the fetch is inside the table, so the round latches its registers and dispatches. -/
theorem roundFetchesRotatesAndDispatches : Obligations.RoundFetchesRotatesAndDispatches := by
  intro s h0 h1 hk
  obtain ⟨t, ht⟩ := tableAt_inside s.par h0 h1
  exact ⟨_, (exec_round s).trans (execRound_next ht), rfl, (tableAt_of_nonneg s.par h0).symm.trans ht,
    key_getElem?_eq_keyAt _ _, rotate_toNat _ hk, selector_toNat t, rfl, rfl⟩

/-! ### DECBYTE -/

theorem exec_decbyte (i : Fin 13) (s : State) : exec (.decbyte i) s = execDecbyte i s := rfl

/-- The rounds of a byte, one at a time. -/
theorem runRounds_cons {r : BitVec 2} {rs : List (BitVec 2)} {s : State} {t : Byte}
    (h : tableAt s.par (s.work.ofs + 64) = some t) :
    runRounds (r :: rs) s = runRounds rs { s with work := roundWork s.par t { s.work with rnd := r } } :=
  congrArg (andThen · (runRounds rs)) (execRound_eq_roundWork (s := setRound r s) h)

/-- The working registers after DECBYTE `i` on RAW[i] = `v` and the table bytes `t1`, `t2`, `t3` (41_decoder R148). -/
def decbyteWork (p : Params) (i : Fin 13) (v t1 t2 t3 : Byte) (w : Work) : Work :=
  let w1 := roundWork p t1 { w with i := BitVec.ofNat 4 i.val, byte := v, rnd := 1 }
  let w2 := roundWork p t2 { w1 with rnd := 2 }
  roundWork p t3 { w2 with rnd := 3 }

section
variable (p : Params) (i : Fin 13) (v t1 t2 t3 : Byte) (w : Work)

theorem decbyteWork_ofs : (decbyteWork p i v t1 t2 t3 w).ofs = w.ofs - 3 := by
  simp only [decbyteWork, roundWork]
  omega

theorem decbyteWork_kidx : (decbyteWork p i v t1 t2 t3 w).kidx = rotate (rotate (rotate w.kidx)) := rfl

theorem decbyteWork_byte :
    (decbyteWork p i v t1 t2 t3 w).byte =
      applyTableByte t3 (keyAt p (rotate (rotate w.kidx)))
        (applyTableByte t2 (keyAt p (rotate w.kidx)) (applyTableByte t1 (keyAt p w.kidx) v)) := rfl

/-- DECBYTE leaves the authenticator's registers alone. -/
theorem decbyteWork_frame :
    (decbyteWork p i v t1 t2 t3 w).sb = w.sb ∧ (decbyteWork p i v t1 t2 t3 w).sa = w.sa ∧
      (decbyteWork p i v t1 t2 t3 w).authOk = w.authOk := ⟨rfl, rfl, rfl⟩

end

/-- DECBYTE by its three table bytes: each round moves OFS down by one, so they stand at OFS + 64, 63 and 62. -/
theorem execDecbyte_reads {i : Fin 13} {s : State} {t1 t2 t3 : Byte}
    (h1 : tableAt s.par (s.work.ofs + 64) = some t1) (h2 : tableAt s.par (s.work.ofs + 63) = some t2)
    (h3 : tableAt s.par (s.work.ofs + 62) = some t3) :
    let w := decbyteWork s.par i (s.raw.read i.val) t1 t2 t3 s.work
    execDecbyte i s = .next { s with dec := s.dec.write i.val w.byte, work := w } := by
  have e2 : s.work.ofs - 1 + 64 = s.work.ofs + 63 := by omega
  have e3 : s.work.ofs - 1 - 1 + 64 = s.work.ofs + 62 := by omega
  intro w
  rw [execDecbyte, runRounds_cons (s := loadByte i s) h1, runRounds_cons (t := t2) (by simpa [roundWork, e2] using h2),
    runRounds_cons (t := t3) (by simpa [roundWork, e3] using h3)]
  rfl

/-- Settles O11: the three rounds are the composite of their three table bytes, and DEC is read back after the write. -/
theorem decbyteRunsThreeRoundsOnOneByte : Obligations.DecbyteRunsThreeRoundsOnOneByte := by
  intro i s t1 t2 t3 hw h1 h2 h3
  refine ⟨_, (exec_decbyte i s).trans (execDecbyte_reads h1 h2 h3), decbyteWork_ofs .., decbyteWork_kidx .., ?_,
    fun a ha => ?_, rfl, decbyteWork_frame ..⟩
  · simp only [read_write hw, if_pos, decbyteWork_byte]
  · simp only [read_write hw, if_neg ha]

end Sys2Proof.Proofs
end

section
/-! The decoder as a function of its inputs (41_decoder R141, R151, R153): the initial offset wherever its masks are
put, and what the schedule of a frame reads. -/

namespace Sys2Proof.Proofs

open Sys2Proof.Machine Sys2Proof.Laws

/-! ### OFSINIT -/

theorem exec_ofsinit (s : State) : exec .ofsinit s = .next (loadOffset s) := rfl

/-- The mask 0xFF keeps the low byte. -/
theorem toNat_and_byteMask (w : BitVec 32) : (w &&& 0xFF).toNat = (w.setWidth 8).toNat := by
  rw [BitVec.toNat_and, BitVec.toNat_setWidth]
  exact Nat.and_two_pow_sub_one_eq_mod w.toNat 8

/-- The low byte of a widened byte is the byte. -/
theorem setWidth_widened (b : Byte) : (b.setWidth 32).setWidth 8 = b := by
  rw [BitVec.setWidth_setWidth_of_le b (by decide), BitVec.setWidth_eq]

/-- The low byte of a difference is the difference of the low bytes. -/
theorem setWidth_byte_sub (v w : BitVec 32) : (v - w).setWidth 8 = v.setWidth 8 - w.setWidth 8 := by
  rw [BitVec.sub_eq_add_neg, BitVec.sub_eq_add_neg, BitVec.setWidth_add _ _ (by decide),
    BitVec.setWidth_neg_of_le (by decide)]

/-- Settles O12: the low byte commutes with `^`, `+` and `-`, so the masks between the lines may be left out. -/
theorem ofsinitComputesInitialOffset : Obligations.OfsinitComputesInitialOffset := by
  intro s K o1 o2 o3 o4 o5
  have hsum : (initialOffset s.par (s.raw.read 14)).toNat = (o5.toNat + 0x26) % 256 := BitVec.toNat_add o5 0x26
  have hlt := (initialOffset s.par (s.raw.read 14)).isLt
  refine ⟨_, exec_ofsinit s, congrArg Nat.cast hsum, ?_, ?_, ?_, rfl⟩
  · exact Int.natCast_nonneg _
  · exact Int.le_of_lt_add_one (Int.ofNat_lt.2 hlt)
  · intro W w
    rw [toNat_and_byteMask]
    simp only [w, W, BitVec.setWidth_add _ _ (show 8 ≤ 32 by decide), setWidth_byte_sub, BitVec.setWidth_xor,
      setWidth_widened]
    rfl

/-! ### DECODE -/

theorem exec_decode (s : State) : exec .decode s = execDecode s := rfl

/-- DEC after DECODE: canonical, and its thirteen bytes those of the closed schedule (41_decoder R151). -/
theorem exec_decode_dec {s u : State} (hw : Memory.wf decSize s.dec = true) (h : exec .decode s = .next u) :
    Memory.wf decSize u.dec = true ∧
      ∀ i : Fin 13, u.dec.read i.val =
        decodedByte s.par (initialOffset s.par (s.raw.read 14)) i.val (s.raw.read i.val) := by
  obtain ⟨w, hd, -⟩ := execDecode_scheduled s
  rw [exec_decode, hd] at h
  obtain rfl := next_inj h
  dsimp only
  obtain ⟨hwf, hread, -⟩ := storeScheduled_spec (p := s.par) (o := initialOffset s.par (s.raw.read 14))
    (raw := s.raw) (is := byteOrder) (by decide) hw
  have hall : ∀ i : Fin 13, i ∈ byteOrder := by decide
  exact ⟨hwf, fun i => hread i (hall i)⟩

section
variable {p q : Params} (hkey : ∀ j : BitVec 3, j ≠ 0 → keyAt p j = keyAt q j)
include hkey

theorem initialOffset_congr (salt : Byte) : initialOffset p salt = initialOffset q salt := by
  simp only [initialOffset, offsetBase, hkey 1 (by decide), hkey 2 (by decide), hkey 3 (by decide), hkey 4 (by decide),
    hkey 5 (by decide), hkey 6 (by decide), hkey 7 (by decide)]

variable (htable : p.table = q.table)
include htable

/-- The rounds of a frame never read K[0]. -/
theorem scheduledRound_congr (o : Byte) {n : Nat} (hn : n < 41) (v : Byte) :
    scheduledRound p o n v = scheduledRound q o n v := by
  simp only [scheduledRound, tableByteAt, tableAt, htable, hkey _ (keyIndexAt_ne_zero hn)]

theorem decodedByte_congr (o : Byte) (i : Nat) (v : Byte) : decodedByte p o i v = decodedByte q o i v := by
  have hn : firstRound i < 38 := by rw [firstRound]; omega
  simp only [decodedByte]
  rw [scheduledRound_congr hkey htable o (by omega), scheduledRound_congr hkey htable o (by omega),
    scheduledRound_congr hkey htable o (by omega)]

end

/-- Settles O17: each byte of DEC is the closed schedule's, whose inputs agree; canonical DECs reading alike are equal. -/
theorem decodeDependsOnNothingElse : Obligations.DecodeDependsOnNothingElse := by
  intro s t u v hs ht hraw hsalt hkey htable hu hv
  obtain ⟨hwu, hdu⟩ := exec_decode_dec hs hu
  obtain ⟨hwv, hdv⟩ := exec_decode_dec ht hv
  refine memory_ext hwu hwv fun a => ?_
  by_cases ha : a < 13
  · calc u.dec.read a
        = decodedByte s.par (initialOffset s.par (s.raw.read 14)) a (s.raw.read a) := hdu ⟨a, ha⟩
      _ = decodedByte t.par (initialOffset t.par (t.raw.read 14)) a (t.raw.read a) := by
        rw [hraw a ha, hsalt, initialOffset_congr hkey, decodedByte_congr hkey htable]
      _ = v.dec.read a := (hdv ⟨a, ha⟩).symm
  · have ha' : decSize ≤ a := Nat.le_of_not_lt ha
    rw [read_beyond hwu ha', read_beyond hwv ha']

end Sys2Proof.Proofs
end

section
/-! The mapper (42_deserializer R181 to R186): MAP as one update of the output registers, and the values of the fields it
assembles from the bytes of DEC. -/

namespace Sys2Proof.Proofs

open Sys2Proof.Machine

theorem exec_map (s : State) : exec .map s = .next (mapOutputs s) := rfl

/-! ### Fields of several bytes -/

/-- A byte appended below a field is its lowest digit to the base 256. -/
theorem toNat_append_byte {n : Nat} (x : BitVec n) (b : Byte) : (x ++ b).toNat = 256 * x.toNat + b.toNat := by
  rw [BitVec.toNat_append, ← Nat.shiftLeft_add_eq_or_of_lt b.isLt, Nat.shiftLeft_eq, Nat.mul_comm]

theorem toInt_byte (b : Byte) : b.toInt = if b < 0x80 then (b.toNat : Int) else (b.toNat : Int) - 256 := by
  have hsign : 2 * b.toNat < 2 ^ 8 ↔ b < 0x80 := by
    rw [BitVec.lt_def, show (0x80 : Byte).toNat = 128 from rfl]
    omega
  simp only [BitVec.toInt_eq_toNat_cond, hsign]
  rfl

/-- The high byte carries the sign of a 16-bit field. -/
theorem toInt_halfOf (lo hi : Byte) : (halfOf lo hi).toInt = 256 * hi.toInt + lo.toNat := BitVec.toInt_append

theorem toNat_buttonsOf (d0 d1 d2 : Byte) :
    (buttonsOf d0 d1 d2).toNat = 65536 * d2.toNat + 256 * d1.toNat + d0.toNat := by
  rw [buttonsOf, toNat_append_byte, toNat_append_byte]
  omega

/-! ### The output registers -/

/-- Aim X by the sign of its high byte (42_deserializer R182). -/
theorem gunOf_aimX_toInt (p : Params) (d : Nat → Byte) :
    (gunOf p d).aimX.toInt =
      if d 4 < 0x80 then 256 * ((d 4).toNat : Int) + (d 3).toNat
      else 256 * ((d 4).toNat : Int) + (d 3).toNat - 65536 := by
  rw [show (gunOf p d).aimX = halfOf (d 3) (d 4) from rfl, toInt_halfOf, toInt_byte]
  split_ifs
  · rfl
  · ring

/-- Settles O25: MAP is one update of the output registers, whose fields are the digits of their bytes. -/
theorem mapExtractsAimXSticksAndButtons : Obligations.MapExtractsAimXSticksAndButtons := by
  intro s
  exact ⟨mapOutputs s, exec_map s, gunOf_aimX_toInt s.par s.dec.read, rfl, rfl, rfl, rfl, toNat_buttonsOf _ _ _, rfl⟩

end Sys2Proof.Proofs
end

section
/-! The frames FRAME drops (43_pipeline R211, R212): both drops end in one state, which the re-arm makes, and
AUTH's verdict is read from the delivered bytes. -/

namespace Sys2Proof.Proofs

open Sys2Proof.Machine Sys2Proof.Laws

theorem exec_frame (s : State) : exec .frame s = execFrame s := rfl

/-! ### The drop and its re-arm -/

/-- A granted re-arm after a drop: the request in flight, one output, and the lines the drop may log (60_exceptions
R261, R262). -/
theorem rearm_dropFrame {e : ErrorClass} {s : State} (ha : s.ports.answers.armOk = true) :
    rearm (noteRaised (some e) (dropFrame e s)) =
      { s with
        pipe.req := .inFlight
        ports.outbox := s.ports.outbox ++ [.armRequest]
        ports.log := s.ports.log ++ dropLines s e
        ports.raised := some e
        ports.draws := s.ports.draws + 1 } := rearm_granted ha

/-- The log after a drop: as before, or, only under DIAG, one line longer (60_exceptions R256). -/
theorem append_dropLines_cases (l : List LogLine) (s : State) (e : ErrorClass) :
    l ++ dropLines s e = l ∨ s.pipe.diag = true ∧ l ++ dropLines s e = l ++ [.dropped e] := by
  obtain h | ⟨hd, h⟩ := dropLines_cases s e
  · exact .inl (by rw [h, List.append_nil])
  · exact .inr ⟨hd, by rw [h]⟩

/-- Settles O29: a delivery of another length only makes RAW undefined before it is dropped. -/
theorem frameDropsWrongLength : Obligations.FrameDropsWrongLength := by
  intro s hp hl ha
  have hrun : exec .frame s = .next (rearm (raise (.malformedLength s.delivered.length) s)) :=
    (exec_frame s).trans (execFrame_wrongLength hp hl)
  exact ⟨_, hrun.trans (congrArg _ (rearm_dropFrame (s := undefinedRaw s) ha)), rfl, rfl, rfl, rfl, rfl, rfl, rfl, rfl,
    rfl, rfl, append_dropLines_cases s.ports.log (undefinedRaw s) _⟩

/-! ### The verdict on the delivered bytes -/

/-- RAW after a delivery reads as the delivered bytes (43_pipeline R210). -/
theorem loadRaw_read (s : State) : (loadRaw s).raw.read = fun j => s.delivered.getD j 0 :=
  funext fun _ => read_ofBytes

/-- A frame whose SA is not K[7] does not authenticate (40_authenticator R123). -/
theorem authenticate_loadRaw_rejects {s : State}
    (h : let r := fun j => s.delivered.getD j 0
      checksumA s.par.chkOrder r (checksumB s.par.chkOrder r) ≠ keyAt s.par 7) :
    (authenticate (loadRaw s)).work.authOk = false := by
  rw [← loadRaw_read] at h
  exact beq_eq_false_iff_ne.2 h

/-- Settles O30: the failed verdict leads to the same drop, after AUTH has written SB, SA and AUTH_OK. -/
theorem frameDropsUnauthentic : Obligations.FrameDropsUnauthentic := by
  intro s hp hl ha r hsum
  let t := authenticate (loadRaw (noteRaised none s))
  have hok : t.work.authOk = false := authenticate_loadRaw_rejects (s := noteRaised none s) hsum
  have hrun : exec .frame s = .next (rearm (raise .authenticationFailure t)) :=
    (exec_frame s).trans ((execFrame_rightLength hp hl).trans (gateFrame_reject hok))
  have hwork : t.work = { s.work with sb := t.work.sb, sa := t.work.sa, authOk := false } := by
    rw [← hok]
    rfl
  exact ⟨_, hrun.trans (congrArg _ (rearm_dropFrame (s := t) ha)), rfl, rfl, rfl, rfl,
    fun j _ => congrFun (loadRaw_read s) j, hwork, rfl, rfl, rfl, rfl, rfl, append_dropLines_cases s.ports.log t _⟩

end Sys2Proof.Proofs
end

section
/-! The boundary (43_pipeline R217, R221): the steps of a resume, and the timeout. -/

namespace Sys2Proof.Proofs

open Sys2Proof.Machine Sys2Proof.Laws

/-- The first step of a resume that re-arms: LOCK is held and the arming waits (43_pipeline R221). -/
theorem step_resume_rearms {s : State} {a : Answers} {rest : List Input} (hseq : s.ports.seq = [])
    (hin : s.ports.inbox = .event .resumeReq a :: rest) (hp : s.pipe.pstate = .suspended) (hl : s.pipe.lock = .free)
    (hw : s.pipe.wasStreaming = true) :
    step s = .next { s with
      pipe.lock := .held, ports.inbox := rest, ports.answers := a, ports.seq := [.resumeArm] } :=
  (step_event hseq hin (.inr hl)).trans (congrArg _ (onResume_rearms hp hw))

/-- The arming that ends a resume runs as one step. -/
theorem step_resumeArm {s : State} {rest : List SeqOp} (h : s.ports.seq = .resumeArm :: rest) :
    step s = .next (finishArm (advance rest s)) := step_place h

/-- Settles O54: the resume and its arming are the two steps; without WAS_STREAMING the request is taken and ignored. -/
theorem resumeRearmsOnlyIfWasStreaming : Obligations.ResumeRearmsOnlyIfWasStreaming := by
  intro s a rest hseq hin hp hl
  refine ⟨fun hw ha => ?_, fun hw => ?_⟩
  · have hrun : core.run 2 s = .next (finishArm (advance [] _)) :=
      (run_succ 1 (step_resume_rearms hseq hin hp hl hw)).trans (run_one (step_resumeArm rfl))
    rw [finishArm_granted ha] at hrun
    refine ⟨_, hrun, ?_, rfl, rfl, rfl⟩
    rw [← hl]
    rfl
  · have hignored : ¬ (s.pipe.pstate = .suspended ∧ s.pipe.wasStreaming = true) := by simp [hw]
    exact (step_event hseq hin (.inr hl)).trans (congrArg _ (onResume_elsewhere hignored))

/-- Settles O50: a timeout that is accepted only sets the latch of the last error. -/
theorem timeoutChangesNothing : Obligations.TimeoutChangesNothing := by
  intro s a rest hseq hin hp hr
  have hstep := (step_event hseq hin (.inl rfl)).trans
    (congrArg _ (onTimeout_accepted (acceptsCompletion_live hp hr)))
  exact ⟨_, hstep, rfl, rfl, rfl, rfl, rfl, rfl, rfl, hseq, rfl, rfl⟩

end Sys2Proof.Proofs
end

section
/-! The parameters are constant (10_state R44, 70_reset R290): every operation and every step that answers a next state
answers one with the same `par`. -/

namespace Sys2Proof.Proofs

open Sys2Proof.Machine Sys2Proof.Laws

section
variable {s u : State}

/-! ### The decoder -/

theorem execRound_par (h : execRound s = .next u) : u.par = s.par := by
  rw [(execRound_frame h).1]

theorem runRounds_par {rs : List (BitVec 2)} (h : runRounds rs s = .next u) : u.par = s.par := by
  induction rs generalizing s with
  | nil => rw [next_inj h]
  | cons r rs ih =>
    obtain ⟨t, ht, hu⟩ := andThen_eq_next.1 h
    rw [ih hu, execRound_par ht, setRound_par]

theorem execDecbyte_par {i : Fin 13} (h : execDecbyte i s = .next u) : u.par = s.par := by
  obtain ⟨t, ht, hu⟩ := andThen_eq_next.1 h
  rw [← next_inj hu, storeDec_par, runRounds_par ht, loadByte_par]

theorem execDecode_par (h : execDecode s = .next u) : u.par = s.par := by
  obtain ⟨w, hd, -⟩ := execDecode_scheduled s
  rw [hd] at h
  rw [← next_inj h]

/-! ### The gates and the boundary -/

theorem execLenchk_par (h : execLenchk s = .next u) : u.par = s.par := by
  rw [execLenchk] at h
  split at h
  · rw [← next_inj h, noteRaised_par]
  · rw [← next_inj h, raise_par]

theorem acceptFrame_par (h : acceptFrame s = .next u) : u.par = s.par := by
  obtain ⟨t, ht, hu⟩ := andThen_eq_next.1 h
  rw [← next_inj hu, rearm_par, emit_par, mapOutputs_par, execDecode_par ht]

theorem gateFrame_par (h : gateFrame s = .next u) : u.par = s.par := by
  cases hok : (authenticate (loadRaw s)).work.authOk with
  | false =>
    rw [gateFrame_reject hok] at h
    rw [← next_inj h, rearm_par, raise_par, authenticate_par, loadRaw_par]
  | true =>
    rw [gateFrame_accept hok] at h
    rw [acceptFrame_par h, authenticate_par, loadRaw_par]

theorem execFrame_par (h : execFrame s = .next u) : u.par = s.par := by
  by_cases hp : s.pipe.pstate = .streaming
  · by_cases hl : s.delivered.length = 15
    · rw [execFrame_rightLength hp hl] at h
      rw [gateFrame_par h, noteRaised_par]
    · rw [execFrame_wrongLength hp hl] at h
      rw [← next_inj h, rearm_par, raise_par]
  · rw [execFrame_outside hp] at h
    rw [next_inj h]

@[simp] theorem handshakeFailed_par (s : State) : (handshakeFailed s).par = s.par := by
  rw [handshakeFailed]
  split <;> rfl

theorem execKeyout_par (h : execKeyout s = .next u) : u.par = s.par := by
  rw [← next_inj h]
  split
  · exact sendKey_par s
  · exact handshakeFailed_par (sendKey s)

/-! ### Every operation, every step -/

/-- The operations not named here are each one update of a working register, the output registers or the answer. -/
theorem exec_par {i : Instr} (h : exec i s = .next u) : u.par = s.par := by
  cases i with
  | round => exact execRound_par h
  | decbyte j => exact execDecbyte_par h
  | decode => exact execDecode_par h
  | lenchk => exact execLenchk_par h
  | frame => exact execFrame_par h
  | keyout => exact execKeyout_par h
  | _ =>
    obtain rfl := next_inj h
    rfl

theorem step_par (h : step s = .next u) : u.par = s.par := by
  obtain ⟨sel, rest, i, -, -, hi⟩ | ⟨p, rest, -, -, rfl⟩ | ⟨rest, -, rfl⟩ | ⟨rest, -, rfl⟩ | ⟨-, rfl⟩ := step_cases h
  · rw [exec_par hi, advance_par]
  · exact finishArm_par (advance rest s)
  · exact finishSuspend_par (advance rest s)
  · exact finishClose_par (advance rest s)
  · exact takeInput_par s

end

/-- Settles O41: reset loads the two parameters, and neither an operation nor a place nor an input writes one. -/
theorem keyMaterialIsNeverMutated : Obligations.KeyMaterialIsNeverMutated :=
  ⟨rfl, rfl, fun _ _ _ => exec_par, fun _ _ => step_par⟩

end Sys2Proof.Proofs
end

section
/-! The encoding (30_encoding sections 1, 4 and 7): the decoder and the encoder undo each other, format by format: table
byte, query mask, place in the program. -/

namespace Sys2Proof.Proofs

open Sys2Proof.Laws

/-! ### Table bytes -/

/-- The match and mask of R91 is well-formedness: a round operation is well-formed exactly if its byte decodes to it. -/
theorem wellFormed_subp_iff (t : Byte) : (Instr.subp t).wellFormed = true ↔ decodeBytes [t] = .ok (.subp t) := by
  rw [decodeBytes_eq_subp_iff, ← and_three_eq_zero_iff, Instr.wellFormed, beq_iff_eq]

theorem wellFormed_addp_iff (t : Byte) : (Instr.addp t).wellFormed = true ↔ decodeBytes [t] = .ok (.addp t) := by
  rw [decodeBytes_eq_addp_iff, ← and_three_eq_one_iff, Instr.wellFormed, beq_iff_eq]

theorem wellFormed_xorp_iff (t : Byte) : (Instr.xorp t).wellFormed = true ↔ decodeBytes [t] = .ok (.xorp t) := by
  rw [decodeBytes_eq_xorp_iff, ← and_two_eq_two_iff, Instr.wellFormed, beq_iff_eq]

/-- A table byte decodes to a round operation on that byte. -/
theorem decodeTableByte_cases (t : Byte) :
    decodeTableByte t = .subp t ∨ decodeTableByte t = .addp t ∨ decodeTableByte t = .xorp t := by
  rw [decodeTableByte]
  split_ifs
  · exact .inl rfl
  · exact .inr (.inl rfl)
  · exact .inr (.inr rfl)

/-! ### Query masks -/

/-- Taking a mask apart loses no bit. -/
theorem maskOfBytes_bytesOfMask (m : Mask24) :
    maskOfBytes (m.extractLsb' 0 8) (m.extractLsb' 8 8) (m.extractLsb' 16 8) = m :=
  calc m.extractLsb' 16 8 ++ m.extractLsb' 8 8 ++ m.extractLsb' 0 8
      = m.extractLsb' 8 16 ++ m.extractLsb' 0 8 :=
        congrArg (· ++ m.extractLsb' 0 8) (BitVec.extractLsb'_append_extractLsb'_eq_extractLsb' rfl)
    _ = m.extractLsb' 0 24 := BitVec.extractLsb'_append_extractLsb'_eq_extractLsb' rfl
    _ = m := BitVec.extractLsb'_eq_self

/-- Putting a mask together loses no bit. -/
theorem bytesOfMask_maskOfBytes (b0 b1 b2 : Byte) : bytesOfMask (maskOfBytes b0 b1 b2) = [b0, b1, b2] := by
  have h0 : (maskOfBytes b0 b1 b2).extractLsb' 0 8 = b0 := BitVec.extractLsb'_append_eq_right
  have h1 : (maskOfBytes b0 b1 b2).extractLsb' 8 8 = b1 :=
    (BitVec.extractLsb'_append_eq_of_le (by decide)).trans BitVec.extractLsb'_append_eq_right
  have h2 : (maskOfBytes b0 b1 b2).extractLsb' 16 8 = b2 :=
    (BitVec.extractLsb'_append_eq_of_le (by decide)).trans BitVec.extractLsb'_append_eq_left
  rw [bytesOfMask, h0, h1, h2]

theorem decodeBytes_bytesOfMask (m : Mask24) : decodeBytes (bytesOfMask m) = decodeMask m :=
  congrArg decodeMask (maskOfBytes_bytesOfMask m)

/-- The eleven masks are pairwise different, so each finds its own button (30_encoding R98). -/
theorem decodeMask_mask (b : Button) : decodeMask b.mask = .ok b.query := by cases b <;> rfl

/-- A mask that decodes is a button's. -/
theorem decodeMask_eq_ok {m : Mask24} {i : Instr} (h : decodeMask m = .ok i) : ∃ b : Button, b.mask = m ∧ b.query = i := by
  rw [decodeMask] at h
  split at h
  · next b hb => exact ⟨b, beq_iff_eq.1 (List.find?_some hb :), Except.ok.inj h⟩
  · cases h

theorem encode_query (b : Button) : encode b.query = .word (bytesOfMask b.mask) := by cases b <;> rfl

theorem query_wellFormed (b : Button) : b.query.wellFormed = true := by cases b <;> rfl

/-! ### Places in the program -/

theorem encode_phase (p : Phase) : encode p.instr = .phase p := by cases p <;> rfl

theorem phase_wellFormed (p : Phase) : p.instr.wellFormed = true := by cases p <;> rfl

/-! ### All 23 rows -/

/-- Every operation has one of the three formats. -/
theorem format_of (i : Instr) : Format.Statement i := by
  cases i with
  | subp t => exact Format.subp t
  | addp t => exact Format.addp t
  | xorp t => exact Format.xorp t
  | lenchk => exact Format.lenchk
  | auth => exact Format.auth
  | ofsinit => exact Format.ofsinit
  | round => exact Format.round
  | decbyte i => exact Format.decbyte i
  | decode => exact Format.decode
  | map => exact Format.map
  | frame => exact Format.frame
  | keyout => exact Format.keyout
  | btnqTrigger => exact Format.btnqTrigger
  | btnqA1 => exact Format.btnqA1
  | btnqA2 => exact Format.btnqA2
  | btnqA3 => exact Format.btnqA3
  | btnqB1 => exact Format.btnqB1
  | btnqB2 => exact Format.btnqB2
  | btnqB3 => exact Format.btnqB3
  | btnqC1 => exact Format.btnqC1
  | btnqC2 => exact Format.btnqC2
  | btnqOutOfRange => exact Format.btnqOutOfRange
  | btnqOneReference => exact Format.btnqOneReference

/-- Settles O1: well-formedness is needed for table bytes only; a mask finds its button and a phase is its own. -/
theorem encodedOperationDecodesToItself : Obligations.EncodedOperationDecodesToItself := by
  intro i hwf
  obtain ⟨t, henc, hi⟩ | ⟨b, henc, rfl⟩ | ⟨p, henc, rfl⟩ := format_of i
  · rw [henc]
    obtain rfl | rfl | rfl := hi
    · exact (wellFormed_subp_iff t).1 hwf
    · exact (wellFormed_addp_iff t).1 hwf
    · exact (wellFormed_xorp_iff t).1 hwf
  · rw [henc]
    exact (decodeBytes_bytesOfMask b.mask).trans (decodeMask_mask b)
  · rw [henc]
    rfl

theorem decodeTableByte_encodes {t : Byte} {i : Instr} (h : decodeBytes [t] = .ok i) :
    i.wellFormed = true ∧ encode i = .word [t] := by
  obtain rfl := (decodeBytes_tableByte_eq_iff t i).1 h
  obtain hi | hi | hi := decodeTableByte_cases t <;> rw [hi] at h ⊢
  · exact ⟨(wellFormed_subp_iff t).2 h, rfl⟩
  · exact ⟨(wellFormed_addp_iff t).2 h, rfl⟩
  · exact ⟨(wellFormed_xorp_iff t).2 h, rfl⟩

/-- The words that decode: one table byte, or the three bytes of a button's mask. -/
theorem decodeBytes_encodes {bs : List Byte} {i : Instr} (h : decodeBytes bs = .ok i) :
    i.wellFormed = true ∧ encode i = .word bs := by
  match bs, h with
  | [t], h => exact decodeTableByte_encodes h
  | [b0, b1, b2], h =>
    obtain ⟨b, hm, rfl⟩ := decodeMask_eq_ok h
    exact ⟨query_wellFormed b, by rw [encode_query, hm, bytesOfMask_maskOfBytes]⟩

/-- Settles O2: a word is the table byte or the mask of its operation, a phase the place of its own. -/
theorem decodedSelectionIsTheEncoders : Obligations.DecodedSelectionIsTheEncoders := by
  intro sel i h
  cases sel with
  | word bs => exact decodeBytes_encodes h
  | phase p =>
    obtain rfl := Except.ok.inj h
    exact ⟨phase_wellFormed p, encode_phase p⟩

/-- Settles O4: the decoder runs on the eight words. -/
theorem writtenWordsDecode : Obligations.WrittenWordsDecode := by
  unfold Obligations.WrittenWordsDecode
  decide

end Sys2Proof.Proofs
end

section
/-! Where a ROUND and a DECBYTE stop (00_scope R11, log 19): exactly where a table index they form is outside 0..319; and
which operation a ROUND runs (30_encoding R90, R91). -/

namespace Sys2Proof.Proofs

open Sys2Proof.Machine Sys2Proof.Laws

/-- What dispatches a round after the fetch is the decoder of table bytes (41_decoder R144). -/
theorem exec_decodeTableByte_latched (t : Byte) (s : State) :
    exec (decodeTableByte t) (latchRound t s) = dispatchRound (latchRound t s) := by
  have hop : (latchRound t s).work.op = selector t := rfl
  rw [decodeTableByte, dispatchRound, hop]
  split_ifs <;> rfl

/-- Settles O9: the fetched byte is latched, and its selector chooses for the decoder and for the dispatch alike. -/
theorem roundRunsTheDecodedTableByte : Obligations.RoundRunsTheDecodedTableByte := by
  intro s t i ht hi
  obtain rfl := (decodeBytes_tableByte_eq_iff t i).1 hi
  rw [exec_round, execRound_eq_roundWork ht, exec_decodeTableByte_latched, dispatchRound_latched]
  rfl

/-! ### The three indices of a byte -/

theorem execRound_outside {s : State} (h : tableAt s.par (s.work.ofs + 64) = none) :
    execRound s = .fault .tableIndexOutOfRange :=
  execRound_fault (by rwa [tableIndex, show s.work.ofs - 1 + 0x41 = s.work.ofs + 64 by omega])

/-- A fault ends the rounds of a byte. -/
theorem runRounds_outside {r : BitVec 2} {rs : List (BitVec 2)} {s : State}
    (h : tableAt s.par (s.work.ofs + 64) = none) : runRounds (r :: rs) s = .fault .tableIndexOutOfRange :=
  congrArg (andThen · (runRounds rs)) (execRound_outside (s := setRound r s) h)

/-- DECBYTE stops at the first of its three indices that reads no table byte. -/
theorem execDecbyte_outside {i : Fin 13} {s : State} (h : s.work.ofs + 62 < 0 ∨ 320 ≤ s.work.ofs + 64) :
    execDecbyte i s = .fault .tableIndexOutOfRange := by
  have e2 : s.work.ofs - 1 + 64 = s.work.ofs + 63 := by omega
  have e3 : s.work.ofs - 1 - 1 + 64 = s.work.ofs + 62 := by omega
  rw [execDecbyte]
  cases h1 : tableAt s.par (s.work.ofs + 64) with
  | none => rw [runRounds_outside (s := loadByte i s) h1]; rfl
  | some t1 =>
    rw [runRounds_cons (s := loadByte i s) h1]
    cases h2 : tableAt s.par (s.work.ofs + 63) with
    | none => rw [runRounds_outside (by simpa [roundWork, e2] using h2)]; rfl
    | some t2 =>
      rw [runRounds_cons (t := t2) (by simpa [roundWork, e2] using h2)]
      have h3 : tableAt s.par (s.work.ofs + 62) = none := by
        refine tableAt_outside s.par (h.imp_right fun h320 => ?_)
        rw [tableAt_outside s.par (.inr h320)] at h1
        cases h1
      rw [runRounds_outside (by simpa [roundWork, e3] using h3)]
      rfl

/-- Where all three indices are inside the table, DECBYTE answers the state of `execDecbyte_reads`. -/
theorem execDecbyte_inside {i : Fin 13} {s : State} (h0 : 0 ≤ s.work.ofs + 62) (h1 : s.work.ofs + 64 < 320) :
    ∃ t1 t2 t3, let w := decbyteWork s.par i (s.raw.read i.val) t1 t2 t3 s.work
      execDecbyte i s = .next { s with dec := s.dec.write i.val w.byte, work := w } := by
  obtain ⟨t1, ht1⟩ := tableAt_inside s.par (idx := s.work.ofs + 64) (by omega) h1
  obtain ⟨t2, ht2⟩ := tableAt_inside s.par (idx := s.work.ofs + 63) (by omega) (by omega)
  obtain ⟨t3, ht3⟩ := tableAt_inside s.par (idx := s.work.ofs + 62) h0 (by omega)
  exact ⟨t1, t2, t3, execDecbyte_reads ht1 ht2 ht3⟩

/-- Whatever DECBYTE answers as a next state is a write of DEC[i] and of the decoder's working registers. -/
theorem execDecbyte_next {i : Fin 13} {s u : State} (h : execDecbyte i s = .next u) :
    ∃ t1 t2 t3, let w := decbyteWork s.par i (s.raw.read i.val) t1 t2 t3 s.work
      u = { s with dec := s.dec.write i.val w.byte, work := w } := by
  by_cases hin : 0 ≤ s.work.ofs + 62 ∧ s.work.ofs + 64 < 320
  · obtain ⟨t1, t2, t3, hd⟩ := execDecbyte_inside (i := i) hin.1 hin.2
    exact ⟨t1, t2, t3, (next_inj (hd.symm.trans h)).symm⟩
  · rw [execDecbyte_outside (by omega)] at h
    cases h

/-- Settles O10: an index inside reads a table byte and one outside reads none, and DECBYTE forms three. -/
theorem roundAndDecbyteStopExactlyOutsideTheTable : Obligations.RoundAndDecbyteStopExactlyOutsideTheTable := by
  intro s i
  rw [exec_round, exec_decbyte]
  refine ⟨⟨fun h => ?_, fun h => execRound_outside (tableAt_outside s.par h)⟩, fun h => ?_, execDecbyte_outside⟩
  · by_contra hin
    obtain ⟨t, ht⟩ := tableAt_inside s.par (idx := s.work.ofs + 64) (by omega) (by omega)
    rw [execRound_eq_roundWork ht] at h
    cases h
  · by_contra hin
    obtain ⟨t1, t2, t3, hd⟩ := execDecbyte_inside (i := i) (s := s) (by omega) (by omega)
    rw [hd] at h
    cases h

end Sys2Proof.Proofs
end

section
/-! The decoder (41_decoder R140, R142, R151 to R156): the initial offset as a bijection of the salt, DECODE as its phases
and as the closed schedule, and each byte's three rounds as a bijection of the byte. -/

namespace Sys2Proof.Proofs

open Sys2Proof.Machine Sys2Proof.Laws

/-! ### The initial offset -/

/-- The salt is recovered from the offset it leads to (41_decoder R142). -/
theorem initialOffset_eq_iff (p : Params) (salt o : Byte) :
    initialOffset p salt = o ↔ salt = offsetBase p ^^^ (o - 0x26) := by
  rw [initialOffset, ← eq_sub_iff_add_eq]
  constructor
  · intro h
    rw [← h, ← BitVec.xor_assoc, BitVec.xor_self, BitVec.zero_xor]
  · rintro rfl
    rw [← BitVec.xor_assoc, BitVec.xor_self, BitVec.zero_xor]

/-- Settles O13: the one salt of an offset is the offset's own, its sum and its exclusive or undone. -/
theorem everySaltHasItsOwnOffset : Obligations.EverySaltHasItsOwnOffset := by
  intro s n hw hn
  have hreach : ∀ salt : Byte, (∃ u, exec .ofsinit { s with raw := s.raw.write 14 salt } = .next u ∧
      u.work.ofs = (n : Int)) ↔ initialOffset s.par salt = BitVec.ofNat 8 n := by
    intro salt
    have hread : (s.raw.write 14 salt).read 14 = salt := by rw [read_write hw, if_pos rfl]
    rw [← BitVec.toNat_inj, BitVec.toNat_ofNat, Nat.mod_eq_of_lt hn, ← Int.natCast_inj, ← hread]
    simp only [exec_ofsinit, Host.Outcome.next.injEq, exists_eq_left', loadOffset_work, hread]
  simp only [hreach, initialOffset_eq_iff]
  exact ⟨_, rfl, fun _ h => h⟩

/-! ### DECODE -/

/-- What DECODE answers: OFS and KIDX after 39 rounds, and only DEC and the decoder's working registers changed. -/
theorem execDecode_frame {s u : State} (h : execDecode s = .next u) :
    u.work.ofs = ((initialOffset s.par (s.raw.read 14)).toNat : Int) - 39 ∧ u.work.kidx = 7 ∧
      u = { s with dec := u.dec, work := u.work } ∧
      u.work.sb = s.work.sb ∧ u.work.sa = s.work.sa ∧ u.work.authOk = s.work.authOk := by
  obtain ⟨w, hd, hofs, hkidx, hsb, hsa, hok⟩ := execDecode_scheduled s
  generalize storeScheduled _ _ _ _ _ = d at hd
  obtain rfl := next_inj (hd.symm.trans h)
  exact ⟨hofs, hkidx, rfl, hsb, hsa, hok⟩

/-- The same by the values of DEC and of the working registers. -/
theorem execDecode_next {s u : State} (h : execDecode s = .next u) : ∃ d w, u = { s with dec := d, work := w } := by
  obtain ⟨-, -, hu, -⟩ := execDecode_frame h
  exact ⟨_, _, hu⟩

theorem execDecode_total (s : State) : ∃ u, execDecode s = .next u := by
  obtain ⟨w, hd, -⟩ := execDecode_scheduled s
  exact ⟨_, hd⟩

/-- Settles O14: the scheduled rounds never fault and count OFS down by 39. -/
theorem decodeAlwaysCompletes : Obligations.DecodeAlwaysCompletes := by
  intro s
  obtain ⟨u, hu⟩ := execDecode_total s
  exact ⟨u, hu, execDecode_frame hu⟩

/-- The loop over the bytes is the fold of their DECBYTEs (41_decoder R149). -/
theorem andThen_decodeBytesOf (is : List (Fin 13)) (o : Host.Outcome State Fault Refusal) :
    andThen o (decodeBytesOf is) = is.foldl (fun o i => andThen o fun x => exec (.decbyte i) x) o := by
  induction is generalizing o with
  | nil => cases o <;> rfl
  | cons i is ih =>
    rw [List.foldl_cons, ← ih]
    cases o <;> rfl

/-- Settles O15: OFSINIT answers a next state, and the loop over the bytes is the fold. -/
theorem decodeIsItsPhasesInOrder : Obligations.DecodeIsItsPhasesInOrder := by
  intro s t ht
  obtain rfl := next_inj ht
  have hloop := andThen_decodeBytesOf byteOrder (.next (loadKeyIndex (loadOffset s)))
  rw [andThen_next] at hloop
  rw [exec_decode, execDecode, execOfsinit, andThen_next]
  exact hloop

/-- Settles O16: the bytes of the list are the scheduled ones, and past them an array in canonical form reads alike. -/
theorem decodeFollowsTheClosedSchedule : Obligations.DecodeFollowsTheClosedSchedule := by
  intro s u hw hu
  obtain ⟨hwu, hread⟩ := exec_decode_dec hw hu
  exact ⟨hread, fun a ha => (read_beyond hwu ha).trans (read_beyond hw ha).symm, hwu⟩

/-! ### The rounds of a byte as a bijection (41_decoder R154, R155) -/

theorem undoTableByte_applyTableByte (t rk v : Byte) : undoTableByte t rk (applyTableByte t rk v) = v := by
  rw [undoTableByte, applyTableByte]
  split_ifs
  · abel
  · abel
  · exact xor_pair_cancel v t rk

theorem applyTableByte_undoTableByte (t rk v : Byte) : applyTableByte t rk (undoTableByte t rk v) = v := by
  rw [undoTableByte, applyTableByte]
  split_ifs
  · abel
  · abel
  · exact xor_pair_cancel v t rk

theorem undoneRound_scheduledRound (p : Params) (o : Byte) (n : Nat) (v : Byte) :
    undoneRound p o n (scheduledRound p o n v) = v := undoTableByte_applyTableByte _ _ v

theorem scheduledRound_undoneRound (p : Params) (o : Byte) (n : Nat) (v : Byte) :
    scheduledRound p o n (undoneRound p o n v) = v := applyTableByte_undoTableByte _ _ v

theorem encodedByte_decodedByte (p : Params) (o : Byte) (i : Nat) (v : Byte) :
    encodedByte p o i (decodedByte p o i v) = v := by
  simp only [encodedByte, decodedByte, undoneRound_scheduledRound]

theorem decodedByte_encodedByte (p : Params) (o : Byte) (i : Nat) (v : Byte) :
    decodedByte p o i (encodedByte p o i v) = v := by
  simp only [encodedByte, decodedByte, scheduledRound_undoneRound]

/-- Different bytes decode differently. -/
theorem decodedByte_inj {p : Params} {o : Byte} {i : Nat} {v x : Byte} :
    decodedByte p o i v = decodedByte p o i x ↔ v = x :=
  (Function.LeftInverse.injective (encodedByte_decodedByte p o i)).eq_iff

/-- Settles O18: both decodes follow the schedule under one salt, which reads for DEC[a] no byte but RAW[a]. -/
theorem payloadByteReachesOneDecodedByte : Obligations.PayloadByteReachesOneDecodedByte := by
  intro s u v i x hraw hdec hu hv
  obtain ⟨hwu, hdu⟩ := exec_decode_dec hdec hu
  obtain ⟨hwv, hdv⟩ := exec_decode_dec (s := { s with raw := s.raw.write i.val x }) hdec hv
  have hi : 14 ≠ i.val := by omega
  simp only [read_write hraw, if_neg hi] at hdv
  refine ⟨fun a ha => ?_, ?_⟩
  · by_cases h13 : a < 13
    · rw [hdu ⟨a, h13⟩, hdv ⟨a, h13⟩, if_neg ha]
    · have h13' : decSize ≤ a := Nat.le_of_not_lt h13
      rw [read_beyond hwu h13', read_beyond hwv h13']
  · rw [hdu i, hdv i, if_pos rfl, decodedByte_inj]

end Sys2Proof.Proofs
end

section
/-! The authenticator (40_authenticator R120 to R128): which bytes the verdict reads, that it reads each of them, and the
one byte that balances a frame. -/

namespace Sys2Proof.Proofs

open Sys2Proof.Machine Sys2Proof.Laws

theorem exec_auth (s : State) : exec .auth s = .next (authenticate s) := rfl

/-- The verdict compares unsigned bytes (40_authenticator R123). -/
theorem verdict_iff (a k : Byte) : verdict a k = true ↔ a = k := beq_iff_eq

/-- SA of a frame `r`, both checksum lines together (40_authenticator R121, R122). -/
def frameSum (order : ChkOrder) (r : Nat → Byte) : Byte := checksumA order r (checksumB order r)

theorem authenticate_authOk_iff (s : State) :
    (authenticate s).work.authOk = true ↔ frameSum s.par.chkOrder s.raw.read = keyAt s.par 7 := verdict_iff _ _

/-- Settles O20: each order is one line of the two checksums. -/
theorem authFoldsFourteenBytes : Obligations.AuthFoldsFourteenBytes := by
  intro s r
  refine ⟨_, exec_auth s, fun h => ?_, fun h => ?_, ?_, rfl⟩
  · simp only [authenticate_work, h]
    exact ⟨rfl, rfl⟩
  · simp only [authenticate_work, h]
    exact ⟨rfl, rfl⟩
  · rw [authenticate_authOk_iff, BitVec.toNat_inj]
    rfl

/-! ### What the verdict reads -/

/-- The sums read RAW[0..13] only. -/
theorem frameSum_congr {order : ChkOrder} {r q : Nat → Byte} (h : ∀ j, j < 14 → r j = q j) :
    frameSum order r = frameSum order q := by
  simp only [frameSum, checksumA, checksumB, h, Nat.reduceLT]

/-- Settles O21: both states have one sum and one K[7]. -/
theorem verdictIgnoresSaltAndOtherKeyBytes : Obligations.VerdictIgnoresSaltAndOtherKeyBytes := by
  intro s t u v hraw hkey horder hu hv
  obtain rfl := next_inj hu
  obtain rfl := next_inj hv
  have hsum : frameSum s.par.chkOrder s.raw.read = frameSum t.par.chkOrder t.raw.read := by
    rw [horder, frameSum_congr hraw]
  refine ⟨hsum, ?_⟩
  rw [Bool.eq_iff_iff, authenticate_authOk_iff, authenticate_authOk_iff, hsum, hkey]

/-! ### Every single change is seen

Each byte enters its line by one sum, difference or exclusive or, and each of these is injective in it. -/

section
variable {order : ChkOrder} {r q : Nat → Byte} {j : Nat} (hoff : ∀ k, k ≠ j → q k = r k)
include hoff

theorem checksumB_detects (hlo : 7 ≤ j) (hhi : j < 14) (h : checksumB order q = checksumB order r) : q j = r j := by
  cases order <;> interval_cases j <;> simpa [checksumB, hoff] using h

theorem checksumA_detects {b : Byte} (hj : j < 7) (h : checksumA order q b = checksumA order r b) : q j = r j := by
  cases order <;> interval_cases j <;> simpa [checksumA, hoff] using h

theorem checksumB_unread (hj : j < 7) : checksumB order q = checksumB order r := by
  have hne : ∀ k, 7 ≤ k → q k = r k := fun k hk => hoff k (by omega)
  simp only [checksumB, hne, Nat.reduceLeDiff]

theorem checksumA_unread {b : Byte} (hj : 7 ≤ j) : checksumA order q b = checksumA order r b := by
  have hne : ∀ k, k < 7 → q k = r k := fun k hk => hoff k (by omega)
  simp only [checksumA, hne, Nat.reduceLT]

end

/-- SA is injective in SB. -/
theorem checksumA_inj {order : ChkOrder} {r : Nat → Byte} {a b : Byte} :
    checksumA order r a = checksumA order r b ↔ a = b := by
  cases order <;> simp [checksumA]

/-- A change of one covered byte changes SA (40_authenticator R126). -/
theorem frameSum_detects {order : ChkOrder} {r q : Nat → Byte} {j : Nat} (hj : j < 14) (hoff : ∀ k, k ≠ j → q k = r k)
    (h : frameSum order q = frameSum order r) : q j = r j := by
  rw [frameSum, frameSum] at h
  by_cases h7 : j < 7
  · rw [checksumB_unread hoff h7] at h
    exact checksumA_detects hoff h7 h
  · rw [checksumA_unread hoff (by omega), checksumA_inj] at h
    exact checksumB_detects hoff (by omega) hj h

/-- Settles O22: equal sums would make the changed byte the old one, and one key byte admits one sum. -/
theorem everySingleByteChangeIsDetected : Obligations.EverySingleByteChangeIsDetected := by
  intro s u v j x hw hj hx hu hv
  obtain rfl := next_inj hu
  obtain rfl := next_inj hv
  have hread : ∀ k, (s.raw.write j x).read k = if k = j then x else s.raw.read k := fun k => read_write hw
  have hne : frameSum s.par.chkOrder (s.raw.write j x).read ≠ frameSum s.par.chkOrder s.raw.read := by
    intro h
    have := frameSum_detects hj (fun k hk => by rw [hread, if_neg hk]) h
    rw [hread, if_pos rfl] at this
    exact hx this
  refine ⟨hne, fun hok => ?_⟩
  rw [authenticate_authOk_iff] at hok
  rw [← Bool.not_eq_true, authenticate_authOk_iff]
  exact fun h => hne (h.trans hok.symm)

/-! ### The balance -/

theorem xor_eq_iff_eq_xor (a b c : Byte) : a ^^^ b = c ↔ a = c ^^^ b := by
  rw [← BitVec.xor_left_inj b, BitVec.xor_assoc, BitVec.xor_self, BitVec.xor_zero]

/-- BALANCE undoes the two lines of the chain order from K[7] back to RAW[13] (40_authenticator R127, R128). -/
theorem frameSum_chain_eq_iff (p : Params) (r : Nat → Byte) :
    frameSum .chain r = keyAt p 7 ↔ r 13 = balance p r := by
  calc frameSum .chain r = keyAt p 7
      ↔ checksumB .chain r = (((keyAt p 7 + r 0 - r 1 - r 2) ^^^ r 3) + r 4 + r 5) ^^^ r 6 := by
        rw [frameSum, checksumA, sub_eq_iff_eq_add, ← eq_sub_iff_add_eq, ← eq_sub_iff_add_eq, xor_eq_iff_eq_xor,
          sub_eq_iff_eq_add, sub_eq_iff_eq_add, BitVec.xor_comm, xor_eq_iff_eq_xor]
    _ ↔ r 13 = balance p r := by
        rw [checksumB, xor_eq_iff_eq_xor, sub_eq_iff_eq_add, sub_eq_iff_eq_add, ← eq_sub_iff_add_eq,
          ← eq_sub_iff_add_eq, xor_eq_iff_eq_xor, balance]

/-- BALANCE reads RAW[0..12]. -/
theorem balance_congr {p : Params} {r q : Nat → Byte} (h : ∀ j, j < 13 → r j = q j) : balance p r = balance p q := by
  simp only [balance, h, Nat.reduceLT]

/-- Settles O23: the authentic sum is solved for RAW[13], which BALANCE does not read. -/
theorem balanceIsTheOneAuthenticByte : Obligations.BalanceIsTheOneAuthenticByte := by
  intro s u x hw horder hu
  obtain rfl := next_inj hu
  have hread : ∀ k, (s.raw.write 13 x).read k = if k = 13 then x else s.raw.read k := fun k => read_write hw
  have hbalance : balance s.par (s.raw.write 13 x).read = balance s.par s.raw.read :=
    balance_congr fun j hj => by rw [hread, if_neg (by omega)]
  rw [authenticate_authOk_iff]
  simp only [horder, frameSum_chain_eq_iff, hbalance, hread, if_pos]

/-! ### The round trip (41_decoder R155, R156) -/

section
variable (p : Params) (d : Nat → Byte) (salt : Byte)

/-- The encoded bytes 0..12 of a frame. -/
def encodedPayload : List Byte := (List.range 13).map fun i => encodedByte p (initialOffset p salt) i (d i)

theorem encodeFrame_length : (encodeFrame p d salt).length = 15 := rfl

theorem encodeFrame_getD {i : Nat} (hi : i < 13) :
    (encodeFrame p d salt).getD i 0 = (encodedPayload p d salt).getD i 0 :=
  List.getD_append _ _ _ _ (by simpa [encodedPayload] using hi)

theorem encodedPayload_getD {i : Nat} (hi : i < 13) :
    (encodedPayload p d salt).getD i 0 = encodedByte p (initialOffset p salt) i (d i) := by
  simp [encodedPayload, hi]

theorem encodeFrame_salt : (encodeFrame p d salt).getD 14 0 = salt := rfl

/-- The byte before the salt balances the frame. -/
theorem encodeFrame_balance :
    (encodeFrame p d salt).getD 13 0 = balance p fun j => (encodeFrame p d salt).getD j 0 := by
  rw [balance_congr fun j hj => encodeFrame_getD p d salt hj]
  rfl

end

theorem raw_ofBytes_read (s : State) (bs : List Byte) (j : Nat) :
    ({ s with raw := Memory.ofBytes bs } : State).raw.read j = bs.getD j 0 := read_ofBytes

/-- Settles O19: the balance makes AUTH accept, and each byte's three rounds undo what the encoder did. -/
theorem encodedFrameAuthenticatesAndDecodes : Obligations.EncodedFrameAuthenticatesAndDecodes := by
  intro s d salt hw horder r
  have hread : ∀ j, r.raw.read j = (encodeFrame s.par d salt).getD j 0 := 
    raw_ofBytes_read s _
  refine ⟨encodeFrame_length s.par d salt, ?_, ?_⟩
  · refine ⟨_, exec_auth r, ?_⟩
    rw [authenticate_authOk_iff, show r.par.chkOrder = .chain from horder, frameSum_chain_eq_iff, funext hread]
    exact encodeFrame_balance s.par d salt
  · obtain ⟨u, hu⟩ := execDecode_total r
    refine ⟨u, hu, fun i hi => ?_⟩
    calc u.dec.read i
        = decodedByte s.par (initialOffset s.par (r.raw.read 14)) i (r.raw.read i) :=
          (exec_decode_dec (s := r) hw hu).2 ⟨i, hi⟩
      _ = d i := by
        rw [hread, hread, encodeFrame_salt, encodeFrame_getD s.par d salt hi, encodedPayload_getD s.par d salt hi,
          decodedByte_encodedByte]

end Sys2Proof.Proofs
end

section
/-! The de-serializer (42_deserializer R180 to R190): the length gate, aim Y and the bytes MAP does not read, the eleven
button queries. -/

namespace Sys2Proof.Proofs

open Sys2Proof.Machine Sys2Proof.Laws

/-! ### The length gate -/

theorem exec_lenchk (s : State) : exec .lenchk s = execLenchk s := rfl

theorem execLenchk_fifteen {s : State} (h : s.delivered.length = 15) : execLenchk s = .next (noteRaised none s) :=
  if_pos h

theorem execLenchk_wrongLength {s : State} (h : s.delivered.length ≠ 15) :
    execLenchk s = .next (raise (.malformedLength s.delivered.length) s) := if_neg h

/-- Settles O24: the length decides between the passing branch and the drop of the malformed delivery. -/
theorem lenchkPassesExactlyFifteen : Obligations.LenchkPassesExactlyFifteen := by
  intro s
  refine ⟨fun h => (exec_lenchk s).trans (execLenchk_fifteen h), fun h => ?_⟩
  exact ⟨_, (exec_lenchk s).trans (execLenchk_wrongLength h), rfl, rfl, rfl, rfl, rfl, rfl, rfl, rfl, rfl, rfl, rfl,
    append_dropLines_cases s.ports.log (undefinedRaw s) _⟩

/-! ### MAP -/

/-- The one 16-bit value without a negation (42_deserializer R183, D7). -/
theorem toInt_eq_min_iff (v : Half) : v.toInt = -32768 ↔ v = 0x8000 := by
  rw [← BitVec.toInt_inj]
  rfl

theorem aimYOf_toInt {p : Params} {v : Half} (h : v ≠ 0x8000) : (aimYOf p v).toInt = -v.toInt := by
  rw [aimYOf, if_neg h]
  exact BitVec.toInt_neg_of_ne_intMin h

theorem aimYOf_min (p : Params) : aimYOf p 0x8000 = p.aimyAtMin := if_pos rfl

/-- Settles O26: the case of -32768 is the case of 0x8000. -/
theorem mapNegatesAimY : Obligations.MapNegatesAimY := by
  intro s u hu rawY
  obtain rfl := next_inj hu
  rw [toInt_eq_min_iff, ne_eq, toInt_eq_min_iff]
  refine ⟨fun h => aimYOf_toInt h, fun h => ?_⟩
  show aimYOf s.par rawY = _
  rw [h, aimYOf_min]

/-- MAP reads eleven of the thirteen bytes (42_deserializer R187). -/
theorem gunOf_congr (p : Params) {d e : Nat → Byte} (h : ∀ j, j < 13 → j ≠ 7 → j ≠ 8 → d j = e j) :
    gunOf p d = gunOf p e := by
  simp [gunOf, h]

/-- Settles O27: the output registers are a function of the parameters and of the eleven bytes. -/
theorem mapIgnoresBytesSevenAndEight : Obligations.MapIgnoresBytesSevenAndEight := by
  intro s t u v hpar hdec hu hv
  obtain rfl := next_inj hu
  obtain rfl := next_inj hv
  rw [mapOutputs_gun, mapOutputs_gun, hpar, gunOf_congr t.par hdec]

/-! ### The button queries -/

/-- The bit of BUTTONS each button stands for (30_encoding R98). -/
def buttonBit : Button → Nat
  | .trigger => 13
  | .a1 => 2
  | .a2 => 1
  | .a3 => 23
  | .b1 => 10
  | .b2 => 9
  | .b3 => 22
  | .c1 => 15
  | .c2 => 3
  | .outOfRange => 11
  | .oneReference => 8

theorem mask_eq_twoPow (b : Button) : b.mask = BitVec.twoPow 24 (buttonBit b) := by cases b <;> decide

theorem mask_ne_zero (b : Button) : b.mask ≠ 0 := by cases b <;> decide

/-- A mask of one bit asks for that bit (42_deserializer R188). -/
theorem queryBit_eq_getLsbD (buttons : Mask24) (b : Button) : queryBit buttons b = buttons.getLsbD (buttonBit b) := by
  have hne := mask_ne_zero b
  rw [mask_eq_twoPow] at hne
  rw [queryBit, mask_eq_twoPow, BitVec.and_twoPow]
  split_ifs with hbit
  · rw [hbit, bne_iff_ne]
    exact hne
  · rw [Bool.eq_false_iff.2 hbit]
    rfl

theorem answerQuery_eq (b : Button) (s : State) :
    answerQuery b s = { s with ports.answer := s.gun.buttons.getLsbD (buttonBit b) } := by
  rw [answerQuery, queryBit_eq_getLsbD]

/-- Running a button's query is taking its answer. -/
theorem exec_query (b : Button) (s : State) : exec b.query s = .next (answerQuery b s) := by cases b <;> rfl

theorem exec_query_bit (b : Button) (s : State) :
    exec b.query s = .next { s with ports.answer := s.gun.buttons.getLsbD (buttonBit b) } := by
  rw [exec_query, answerQuery_eq]

/-- Settles O28: each mask is the power of two of its bit. -/
theorem buttonQueriesAnswerTheirBit : Obligations.ButtonQueriesAnswerTheirBit := by
  intro s
  exact ⟨exec_query_bit .trigger s, exec_query_bit .a1 s, exec_query_bit .a2 s, exec_query_bit .a3 s,
    exec_query_bit .b1 s, exec_query_bit .b2 s, exec_query_bit .b3 s, exec_query_bit .c1 s, exec_query_bit .c2 s,
    exec_query_bit .outOfRange s, exec_query_bit .oneReference s⟩

end Sys2Proof.Proofs
end

section
/-! FRAME (43_pipeline R210 to R214): its three ways while Streaming, each with the state it re-arms from, and what
follows from them for one frame and for two. -/

namespace Sys2Proof.Proofs

open Sys2Proof.Machine Sys2Proof.Laws

/-! ### The gate -/

/-- The delivered bytes, and zero past them. -/
def deliveredByte (s : State) (j : Nat) : Byte := s.delivered.getD j 0

/-- A frame of the right length where FRAME decides between decode and drop: RAW loaded, the verdict taken. -/
def gated (s : State) : State := authenticate (loadRaw (noteRaised none s))

theorem gated_read (s : State) : (gated s).raw.read = deliveredByte s := loadRaw_read s

/-- The verdict is read from the delivered bytes. -/
theorem gated_authOk_iff (s : State) :
    (gated s).work.authOk = true ↔ frameSum s.par.chkOrder (deliveredByte s) = keyAt s.par 7 := by
  rw [← gated_read]
  exact authenticate_authOk_iff (loadRaw (noteRaised none s))

/-! ### The three ways -/

section
variable {s t : State} (hp : s.pipe.pstate = .streaming) (hl : s.delivered.length = 15)
include hp hl

theorem execFrame_rejected (hok : (gated s).work.authOk = false) :
    execFrame s = .next (rearm (raise .authenticationFailure (gated s))) :=
  (execFrame_rightLength hp hl).trans (gateFrame_reject hok)

theorem execFrame_accepted (hok : (gated s).work.authOk = true) (hd : execDecode (gated s) = .next t) :
    execFrame s = .next (rearm (emit (mapOutputs t))) := by
  rw [execFrame_rightLength hp hl, gateFrame_accept hok, acceptFrame]
  exact congrArg (andThen · _) hd

end

/-- The ways of a FRAME from `s` while Streaming, by the state `x` in which it asks for the re-arm. -/
inductive FrameRun (s : State) : State → Prop
  | wrongLength (hl : s.delivered.length ≠ 15) : FrameRun s (raise (.malformedLength s.delivered.length) s)
  | rejected (hl : s.delivered.length = 15) (hok : (gated s).work.authOk = false) :
      FrameRun s (raise .authenticationFailure (gated s))
  | accepted {t : State} (hl : s.delivered.length = 15) (hok : (gated s).work.authOk = true)
      (hd : execDecode (gated s) = .next t) : FrameRun s (emit (mapOutputs t))

/-- While Streaming every FRAME ends in the re-arm (43_pipeline R214, 60_exceptions R262). -/
theorem execFrame_run {s : State} (hp : s.pipe.pstate = .streaming) :
    ∃ x, FrameRun s x ∧ execFrame s = .next (rearm x) := by
  by_cases hl : s.delivered.length = 15
  · cases hok : (gated s).work.authOk with
    | false => exact ⟨_, .rejected hl hok, execFrame_rejected hp hl hok⟩
    | true =>
      obtain ⟨t, hd⟩ := execDecode_total (gated s)
      exact ⟨_, .accepted hl hok hd, execFrame_accepted hp hl hok hd⟩
  · exact ⟨_, .wrongLength hl, execFrame_wrongLength hp hl⟩

/-- Whatever FRAME answers: the state as it was outside Streaming, and a re-armed one while Streaming. -/
theorem execFrame_cases {s u : State} (h : execFrame s = .next u) :
    (s.pipe.pstate ≠ .streaming ∧ u = s) ∨ (s.pipe.pstate = .streaming ∧ ∃ x, FrameRun s x ∧ u = rearm x) := by
  by_cases hp : s.pipe.pstate = .streaming
  · obtain ⟨x, hx, hrun⟩ := execFrame_run hp
    exact .inr ⟨hp, x, hx, next_inj (h.symm.trans hrun)⟩
  · exact .inl ⟨hp, next_inj (h.symm.trans (execFrame_outside hp))⟩

/-- Settles O34: the pipeline state guards the whole of FRAME. -/
theorem frameOutsideStreamingDoesNothing : Obligations.FrameOutsideStreamingDoesNothing := by
  intro s hp
  exact (exec_frame s).trans (execFrame_outside hp)

/-- Up to its re-arm FRAME leaves the boundary registers, the delivery, the sequencer, the inbox and the answers alone. -/
theorem FrameRun.boundary {s x : State} (h : FrameRun s x) :
    x.pipe = s.pipe ∧ x.delivered = s.delivered ∧ x.ports.seq = s.ports.seq ∧ x.ports.inbox = s.ports.inbox ∧
      x.ports.answers = s.ports.answers := by
  cases h with
  | wrongLength => exact ⟨rfl, rfl, rfl, rfl, rfl⟩
  | rejected => exact ⟨rfl, rfl, rfl, rfl, rfl⟩
  | accepted _ _ hd =>
    obtain ⟨d, w, rfl⟩ := execDecode_next hd
    exact ⟨rfl, rfl, rfl, rfl, rfl⟩

/-- Up to its re-arm FRAME puts out nothing, or the update of an authentic frame with its marker. -/
theorem FrameRun.outbox {s x : State} (h : FrameRun s x) :
    x.ports.outbox = s.ports.outbox ∨
      s.delivered.length = 15 ∧ frameSum s.par.chkOrder (deliveredByte s) = keyAt s.par 7 ∧
        x.ports.outbox = s.ports.outbox ++ [.update (updateOf x.gun), .marker] := by
  cases h with
  | wrongLength => exact .inl rfl
  | rejected => exact .inl rfl
  | accepted hl hok hd =>
    obtain ⟨d, w, rfl⟩ := execDecode_next hd
    exact .inr ⟨hl, (gated_authOk_iff s).1 hok, rfl⟩

/-! ### One frame -/

/-- Settles O31: the accepted way, its DEC the closed schedule's on the delivered bytes. -/
theorem frameEmitsOneUpdateOfAnAuthenticFrame : Obligations.FrameEmitsOneUpdateOfAnAuthenticFrame := by
  intro s hp hl ha hw r d hsum
  have hok : (gated s).work.authOk = true := (gated_authOk_iff s).2 hsum
  obtain ⟨t, hd⟩ := execDecode_total (gated s)
  have hrun : exec .frame s = .next (rearm (emit (mapOutputs t))) := execFrame_accepted hp hl hok hd
  have hdec : ∀ i, i < 13 → t.dec.read i = d i := fun i hi => by
    rw [(exec_decode_dec (s := gated s) hw hd).2 ⟨i, hi⟩, gated_read]
    rfl
  have hauth : t.work.authOk = true := by
    obtain ⟨-, -, -, -, -, hkept⟩ := execDecode_frame hd
    rw [hkept, hok]
  have hgun : gunOf t.par t.dec.read = gunOf t.par d := gunOf_congr t.par fun j hj _ _ => hdec j hj
  obtain ⟨dec, w, rfl⟩ := execDecode_next hd
  rw [rearm_granted (s := emit (mapOutputs { gated s with dec := dec, work := w })) ha] at hrun
  refine ⟨_, hrun, hgun, hdec, fun j _ => congrFun (gated_read s) j, hauth, rfl, rfl, rfl, ?_⟩
  rw [armGranted_ports, emit_ports, List.append_assoc]
  rfl

/-- Settles O32: each of the three ways ends in one re-arm, whose answer is the one waiting. -/
theorem frameRearmsOnEveryPath : Obligations.FrameRearmsOnEveryPath := by
  intro s hp
  obtain ⟨x, hx, hrun⟩ := execFrame_run hp
  obtain ⟨hpipe, -, -, -, hanswers⟩ := hx.boundary
  obtain ⟨emitted, hemitted, hout⟩ : ∃ emitted, (emitted = [] ∨ ∃ g, emitted = [.update (updateOf g), .marker]) ∧
      x.ports.outbox = s.ports.outbox ++ emitted := by
    obtain hout | ⟨-, -, hout⟩ := hx.outbox
    · exact ⟨[], .inl rfl, by rw [hout, List.append_nil]⟩
    · exact ⟨_, .inr ⟨_, rfl⟩, hout⟩
  refine ⟨_, emitted, (exec_frame s).trans hrun, hemitted, fun ha => ?_, fun ha => ?_⟩
  · rw [← hanswers] at ha
    rw [rearm_granted ha, armGranted_ports, armGranted_pipe, hout, hpipe]
    exact ⟨rfl, rfl⟩
  · rw [← hanswers] at ha
    rw [rearm_failed ha, armFailed_ports, armFailed_pipe, hout, hpipe]
    exact ⟨rfl, rfl⟩

/-! ### Two frames -/

/-- The re-arm reads the boundary only. -/
theorem rearm_congr {x y : State} (hpipe : x.pipe = y.pipe) (hports : x.ports = y.ports) :
    (rearm x).pipe = (rearm y).pipe ∧ (rearm x).ports = (rearm y).ports := by
  cases ha : y.ports.answers.armOk with
  | false =>
    rw [rearm_failed ha, rearm_failed (by rw [hports]; exact ha)]
    simp only [armFailed_pipe, armFailed_ports, hpipe, hports, and_self]
  | true =>
    rw [rearm_granted ha, rearm_granted (by rw [hports]; exact ha)]
    simp only [armGranted_pipe, armGranted_ports, hpipe, hports, and_self]

/-- Settles O33: the verdict and RAW come from the delivery, and DEC from RAW and the parameters. -/
theorem frameForgetsEarlierFrames : Obligations.FrameForgetsEarlierFrames := by
  intro s u v raw dec w hl hp hws hwd hu hv
  let s' : State := { s with raw := raw, dec := dec, work := w }
  cases hok : (gated s).work.authOk with
  | false =>
    have hok' : (gated s').work.authOk = false := hok
    obtain rfl := next_inj ((execFrame_rejected hp hl hok).symm.trans hu)
    obtain rfl := next_inj ((execFrame_rejected (s := s') hp hl hok').symm.trans hv)
    obtain ⟨hpipe, hports⟩ := rearm_congr (x := raise .authenticationFailure (gated s'))
      (y := raise .authenticationFailure (gated s)) rfl rfl
    simp only [rearm_gun, rearm_raw, rearm_work, rearm_dec, raise_work]
    refine ⟨rfl, hpipe, hports, rfl, rfl, rfl, rfl, fun h => ?_⟩
    rw [hok] at h
    cases h
  | true =>
    have hok' : (gated s').work.authOk = true := hok
    obtain ⟨t, hd⟩ := execDecode_total (gated s)
    obtain ⟨t', hd'⟩ := execDecode_total (gated s')
    obtain rfl := next_inj ((execFrame_accepted hp hl hok hd).symm.trans hu)
    obtain rfl := next_inj ((execFrame_accepted (s := s') hp hl hok' hd').symm.trans hv)
    have hdec : t'.dec = t.dec := decodeDependsOnNothingElse (gated s') (gated s) t' t hwd hws (fun _ _ => rfl) rfl
      (fun _ _ => rfl) rfl hd' hd
    obtain ⟨-, -, -, hsb, hsa, hauth⟩ := execDecode_frame hd
    obtain ⟨-, -, -, hsb', hsa', hauth'⟩ := execDecode_frame hd'
    obtain ⟨d, x, rfl⟩ := execDecode_next hd
    obtain ⟨d', x', rfl⟩ := execDecode_next hd'
    obtain rfl : d' = d := hdec
    obtain ⟨hpipe, hports⟩ := rearm_congr (x := emit (mapOutputs { gated s' with dec := d', work := x' }))
      (y := emit (mapOutputs { gated s with dec := d', work := x })) rfl rfl
    simp only [rearm_gun, rearm_raw, rearm_work, rearm_dec]
    exact ⟨rfl, hpipe, hports, rfl, hauth'.trans hauth.symm, hsb'.trans hsb.symm, hsa'.trans hsa.symm, fun _ => rfl⟩

end Sys2Proof.Proofs
end

section
/-! The handshake (43_pipeline R223, R224): KEYOUT by the answer to its write and, where that fails, by the policy. -/

namespace Sys2Proof.Proofs

open Sys2Proof.Machine Sys2Proof.Laws

theorem exec_keyout (s : State) : exec .keyout s = execKeyout s := rfl

/-- The payload is K[0] to K[7] (30_encoding R99). -/
theorem keyBytes_eq (p : Params) :
    keyBytes p =
      [keyAt p 0, keyAt p 1, keyAt p 2, keyAt p 3, keyAt p 4, keyAt p 5, keyAt p 6, keyAt p 7] := by
  refine List.ext_getElem (by simp [keyBytes]) fun n hn _ => ?_
  have hn8 : n < 8 := by simpa [keyBytes] using hn
  interval_cases n <;> rfl

/-- Settles O35: the write that succeeds is the whole of KEYOUT. -/
theorem keyoutSendsTheEightKeyBytes : Obligations.KeyoutSendsTheEightKeyBytes := by
  intro s h
  rw [exec_keyout, execKeyout_sent h, ← keyBytes_eq]
  rfl

theorem handshakeFailed_proceed {s : State} (h : s.par.failPolicy = .proceed) :
    handshakeFailed s = addLog .handshakeFailed s := by rw [handshakeFailed, h]

theorem handshakeFailed_abort {s : State} (h : s.par.failPolicy = .abort) :
    handshakeFailed s = abandonOpen .handshakeFailed s := by rw [handshakeFailed, h]

/-- An open abandoned at its handshake (43_pipeline R224). -/
theorem abandonOpen_sendKey (r : Report) (s : State) :
    abandonOpen r (sendKey s) = { s with
      pipe.handshakeSent := true, pipe.pstate := .closed, pipe.lock := .free
      ports.seq := []
      ports.outbox := s.ports.outbox ++ [.keyWrite (keyBytes s.par), .errorReport r] } := by
  rw [abandonOpen, sendKey_ports, List.append_assoc]
  rfl

/-- Settles O36: the policy is the one branch of a failed write. -/
theorem failedHandshakeFollowsThePolicy : Obligations.FailedHandshakeFollowsThePolicy := by
  intro s h
  refine ⟨_, (exec_keyout s).trans (execKeyout_failed h), fun hpolicy => ?_, fun hpolicy => ?_⟩
  · rw [handshakeFailed_proceed (s := sendKey s) hpolicy]
    rfl
  · rw [handshakeFailed_abort (s := sendKey s) hpolicy, abandonOpen_sendKey]

/-- A handshake that does not end the open: written, or failed and logged under `proceed`. -/
theorem execKeyout_proceeds {s : State} (h : s.ports.answers.sendOk = true ∨ s.par.failPolicy = .proceed) :
    execKeyout s = .next { sendKey s with
      ports.log := s.ports.log ++ if s.ports.answers.sendOk then [] else [.handshakeFailed] } := by
  cases hsend : s.ports.answers.sendOk with
  | true =>
    rw [execKeyout_sent hsend, if_pos rfl, List.append_nil]
    rfl
  | false =>
    rw [execKeyout_failed hsend, handshakeFailed_proceed (s := sendKey s) (h.resolve_left (by simp [hsend]))]
    rfl

end Sys2Proof.Proofs
end

section
/-! The step and the lifecycle programs (30_encoding R101, 43_pipeline R215 to R222): what each first step makes of its
input, what each place does, and the runs they form. -/

namespace Sys2Proof.Proofs

open Sys2Proof.Machine Sys2Proof.Laws

/-! ### The step -/

/-- A selection that decodes runs its operation, the sequencer already past it. -/
theorem step_selected {s : State} {sel : Sel} {rest : List SeqOp} {i : Instr} (h : s.ports.seq = .op sel :: rest)
    (hi : decodeSel sel = .ok i) : step s = exec i (advance rest s) := by
  rw [step_place h, runPlace, hi]

/-- Settles O37: a selection that decodes runs, and one that does not is refused. -/
theorem stepRunsTheSelectedOperation : Obligations.StepRunsTheSelectedOperation := by
  intro s sel rest h
  refine ⟨fun i hi => step_selected h hi, fun r hr => ?_⟩
  rw [step_place h, runPlace, hr]

/-- Settles O38: nothing runs and nothing is taken. -/
theorem idleStepChangesNothing : Obligations.IdleStepChangesNothing := by
  intro s hseq hin
  rw [step_input hseq, takeInput, hin]

section
variable {s : State} {rest : List SeqOp}

theorem step_keyout (h : s.ports.seq = .op (.phase .keyout) :: rest) : step s = execKeyout (advance rest s) :=
  step_place h

theorem step_openArm (h : s.ports.seq = .openArm :: rest) : step s = .next (finishArm (advance rest s)) := step_place h

theorem step_suspendDone (h : s.ports.seq = .suspendDone :: rest) : step s = .next (finishSuspend (advance rest s)) :=
  step_place h

theorem step_closeDone (h : s.ports.seq = .closeDone :: rest) : step s = .next (finishClose (advance rest s)) :=
  step_place h

end

/-- Two steps that answer next states. -/
theorem run_two {s m u : State} (h1 : step s = .next m) (h2 : step m = .next u) : core.run 2 s = .next u :=
  (run_succ 1 h1).trans (run_one h2)

/-- Three. -/
theorem run_three {s m n u : State} (h1 : step s = .next m) (h2 : step m = .next n) (h3 : step n = .next u) :
    core.run 3 s = .next u := (run_succ 2 h1).trans (run_two h2 h3)

/-! ### Completions -/

/-- An event as the handlers see it: its answers loaded, the rest of the inbox waiting. -/
def taking (a : Answers) (rest : List Input) (s : State) : State := loadAnswers a { s with ports.inbox := rest }

theorem step_takes {s : State} {e : Event} {a : Answers} {rest : List Input} (hseq : s.ports.seq = [])
    (hin : s.ports.inbox = .event e a :: rest) (hl : e.isLifecycle = false ∨ s.pipe.lock = .free) :
    step s = .next (onEvent e (taking a rest s)) := step_event hseq hin hl

theorem taking_accepts {s : State} (a : Answers) (rest : List Input) (hp : s.pipe.pstate = .streaming)
    (hr : s.pipe.req = .inFlight) : acceptsCompletion (taking a rest s) = true := acceptsCompletion_live hp hr

/-- Settles O49: the accepted delivery selects FRAME, which is the place the next step runs. -/
theorem dataCompletionRunsFrame : Obligations.DataCompletionRunsFrame := by
  intro s bytes a rest hseq hin hp hr
  have hstep := (step_takes hseq hin (.inl rfl)).trans (congrArg _ (onData_accepted (taking_accepts a rest hp hr)))
  refine ⟨_, hstep, rfl, ?_⟩
  exact step_selected (sel := .phase .frame) (rest := []) (i := .frame) rfl rfl

/-- Settles O51: an accepted shutdown closes the pipeline and is reported. -/
theorem shutdownClosesDirectly : Obligations.ShutdownClosesDirectly := by
  intro s a rest hseq hin hp hr
  have hstep := (step_takes hseq hin (.inl rfl)).trans (congrArg _ (onShutdown_accepted (taking_accepts a rest hp hr)))
  refine ⟨_, hstep, ?_⟩
  simp [raise, taking, hseq]

/-- Another transient error consumes the request, logs, and asks for one re-arm (43_pipeline R219). -/
theorem step_transient {s : State} {a : Answers} {rest : List Input} (hseq : s.ports.seq = [])
    (hin : s.ports.inbox = .event .transient a :: rest) (hp : s.pipe.pstate = .streaming)
    (hr : s.pipe.req = .inFlight) :
    step s = .next (noteRaised (some .transportTransient)
      (rearm (addLog .transient { taking a rest s with pipe.req := .none }))) :=
  (step_takes hseq hin (.inl rfl)).trans (congrArg _ (onTransient_accepted (taking_accepts a rest hp hr)))

/-- Settles O52: the answer to the re-arm decides between the two ends. -/
theorem transientErrorRearmsOnce : Obligations.TransientErrorRearmsOnce := by
  intro s a rest hseq hin hp hr
  have hstep := step_transient hseq hin hp hr
  cases ha : a.armOk with
  | true =>
    rw [rearm_granted (s := addLog .transient { taking a rest s with pipe.req := .none }) ha] at hstep
    refine ⟨_, hstep, ?_⟩
    simp [taking, hseq, ← hr]
  | false =>
    rw [rearm_failed (s := addLog .transient { taking a rest s with pipe.req := .none }) ha] at hstep
    refine ⟨_, hstep, ?_⟩
    simp [taking, hseq]

/-! ### Open -/

/-- An Opening after its first step: KEYOUT and the arming wait (43_pipeline R216). -/
def openingBegun (a : Answers) (rest : List Input) (s : State) : State :=
  { beginOpening (taking a rest s) with ports.seq := [.op (.phase .keyout), .openArm] }

/-- An Opening whose handshake did not end it: the arming waits. -/
def openingKeyed (a : Answers) (rest : List Input) (s : State) : State :=
  { sendKey (advance [.openArm] (openingBegun a rest s)) with
    ports.log := s.ports.log ++ if a.sendOk then [] else [.handshakeFailed] }

section
variable {s : State} {a : Answers} {rest : List Input} (hseq : s.ports.seq = [])
  (hin : s.ports.inbox = .event .openReq a :: rest) (hp : s.pipe.pstate = .closed) (hl : s.pipe.lock = .free)
include hseq hin hp hl

theorem step_open (ha : a.resourceOk = true) : step s = .next (openingBegun a rest s) :=
  (step_takes hseq hin (.inr hl)).trans (congrArg _ (onOpen_closed (s := taking a rest s) hp ha))

theorem step_open_noResource (ha : a.resourceOk = false) :
    step s = .next (raise .resourceExhaustion (beginOpening (taking a rest s))) :=
  (step_takes hseq hin (.inr hl)).trans (congrArg _ (onOpen_noResource (s := taking a rest s) hp ha))

/-- An open whose handshake does not end it runs its three steps, and ends as its arming does. -/
theorem run_open (ha : a.resourceOk = true) (hk : a.sendOk = true ∨ s.par.failPolicy = .proceed) :
    core.run 3 s = .next (finishArm (advance [] (openingKeyed a rest s))) := by
  have hkeyout : step (openingBegun a rest s) = .next (openingKeyed a rest s) :=
    (step_keyout rfl).trans (execKeyout_proceeds (s := advance [.openArm] (openingBegun a rest s)) hk)
  exact run_three (step_open hseq hin hp hl ha) hkeyout (step_openArm rfl)

/-- An open whose handshake fails under `abort` is given up by its second step. -/
theorem run_open_abort (ha : a.resourceOk = true) (hk : a.sendOk = false) (hpolicy : s.par.failPolicy = .abort) :
    core.run 2 s = .next (abandonOpen .handshakeFailed (sendKey (advance [.openArm] (openingBegun a rest s)))) := by
  refine run_two (step_open hseq hin hp hl ha) ?_
  rw [step_keyout rfl, execKeyout_failed (s := advance [.openArm] (openingBegun a rest s)) hk,
    handshakeFailed_abort (s := sendKey (advance [.openArm] (openingBegun a rest s))) hpolicy]

end

/-- Settles O47: the first step begins the Opening, the other two send the key and arm. -/
theorem openEndsStreaming : Obligations.OpenEndsStreaming := by
  intro s a rest hseq hin hp hl ha hk harm
  refine ⟨⟨_, run_one (step_open hseq hin hp hl ha), rfl, rfl⟩, ?_⟩
  have hrun := run_open hseq hin hp hl ha hk
  rw [finishArm_granted (s := advance [] (openingKeyed a rest s)) harm] at hrun
  refine ⟨_, hrun, ?_⟩
  simp [openingKeyed, openingBegun, taking]

/-- Settles O48: the three ways to fail, each at its own step. -/
theorem openFailureEndsClosed : Obligations.OpenFailureEndsClosed := by
  intro s a rest hseq hin hp hl hr codecKept
  refine ⟨fun ha => ?_, fun ha hk hpolicy => ?_, fun ha hk harm => ?_⟩
  · refine ⟨_, step_open_noResource hseq hin hp hl ha, ?_⟩
    simp [codecKept, raise, taking, hp, hl]
  · refine ⟨_, run_open_abort hseq hin hp hl ha hk hpolicy, ?_⟩
    simp [codecKept, openingBegun, taking, hp, hl]
  · have hrun := run_open hseq hin hp hl ha hk
    rw [finishArm_failed (s := advance [] (openingKeyed a rest s)) harm] at hrun
    refine ⟨_, hrun, ?_⟩
    simp [codecKept, openingKeyed, openingBegun, taking, hp, hl, hr]

/-! ### Suspend, resume and close -/

/-- Settles O53: the cancellation is the first step, its completion and the acknowledgement the second. -/
theorem suspendCancelsThenAcknowledges : Obligations.SuspendCancelsThenAcknowledges := by
  intro s a rest hseq hin hp hr hl
  have hstep := (step_takes hseq hin (.inr hl)).trans
    (congrArg _ (onSuspend_streaming (s := taking a rest s) hp))
  rw [cancelRequest_inFlight (by exact hr)] at hstep
  refine ⟨⟨_, run_one hstep, rfl, rfl⟩, _, run_two hstep (step_suspendDone rfl), ?_⟩
  simp [taking, hl]

/-- Settles O55: the resume is accepted and its arming fails. -/
theorem failedResumeArmEndsClosed : Obligations.FailedResumeArmEndsClosed := by
  intro s a rest hseq hin hp hl hw harm
  have hrun : core.run 2 s = .next (finishArm (advance [] _)) :=
    run_two (step_resume_rearms hseq hin hp hl hw) (step_resumeArm rfl)
  rw [finishArm_failed harm] at hrun
  refine ⟨_, hrun, ?_, rfl, rfl, rfl, rfl⟩
  rw [← hl]
  rfl

/-- A cancellation puts out one output exactly if a request is in flight. -/
theorem cancelRequest_eq (s : State) :
    cancelRequest s = putOut (if s.pipe.req = .inFlight then [.cancelRequest] else []) s := by
  split_ifs with h
  · exact cancelRequest_inFlight h
  · rw [cancelRequest_none h, putOut, List.append_nil]

/-- Settles O56: the cancellation is the first step, the end of the close the second. -/
theorem closeCancelsThenCloses : Obligations.CloseCancelsThenCloses := by
  intro s a rest hseq hin hp hl cancel
  have hstep := (step_takes hseq hin (.inr hl)).trans (congrArg _ (onClose_open (s := taking a rest s) hp))
  rw [cancelRequest_eq] at hstep
  change step s = .next (putOut cancel _) at hstep
  refine ⟨⟨_, run_one hstep, rfl, rfl⟩, _, run_two hstep (step_closeDone rfl), ?_⟩
  simp [taking, hl]

/-! ### Events that do not pair with the state -/

/-- Settles O57: each handler's branch for the states it does not pair with. -/
theorem unpairedEventsChangeNothing : Obligations.UnpairedEventsChangeNothing := by
  intro s e a rest hseq hin hl t
  have hstep : step s = .next (onEvent e t) := step_takes hseq hin (.inr hl)
  have ignored : s.pipe.pstate ≠ .streaming →
      (∀ bytes, onData bytes t = t) ∧ onTimeout t = t ∧ onShutdown t = t ∧ onTransient t = t := fun hp =>
    completion_ignored (s := t) (acceptsCompletion_outside hp)
  refine ⟨?_, ?_, ?_, ?_, ?_, ?_⟩
  · rintro rfl hp
    exact hstep.trans (congrArg _ (onOpen_elsewhere (s := t) hp))
  · rintro rfl hp
    exact hstep.trans (congrArg _ (onClose_elsewhere (s := t) (by simp [t, hp])))
  · rintro rfl hp
    exact hstep.trans (congrArg _ (onResume_elsewhere (s := t) (hp ·.1)))
  · rintro rfl hp
    exact hstep.trans (congrArg _ (onSuspend_elsewhere (s := t) hp))
  · rintro bytes rfl hp
    exact hstep.trans (congrArg _ ((ignored hp).1 bytes))
  · rintro he hp
    obtain ⟨-, htimeout, hshutdown, htransient⟩ := ignored hp
    obtain rfl | rfl | rfl := he
    · exact hstep.trans (congrArg _ htimeout)
    · exact hstep.trans (congrArg _ hshutdown)
    · exact hstep.trans (congrArg _ htransient)

/-! ### The consumer's query -/

/-- A query is taken by selecting its mask (log 34). -/
theorem step_query {s : State} {b : Button} {rest : List Input} (hseq : s.ports.seq = [])
    (hin : s.ports.inbox = .query b :: rest) :
    step s = .next { s with ports.inbox := rest, ports.seq := [.op (.word (bytesOfMask b.mask))] } := by
  rw [step_input hseq, takeInput, hin]

/-- Settles O60: the mask decodes to the query of its button, which the second step runs. -/
theorem consumerQueryAnswersItsBit : Obligations.ConsumerQueryAnswersItsBit := by
  intro s b rest hseq hin
  have hdecode : decodeSel (.word (bytesOfMask b.mask)) = .ok b.query :=
    (decodeBytes_bytesOfMask b.mask).trans (decodeMask_mask b)
  have hquery := (step_selected
    (s := { s with ports.inbox := rest, ports.seq := [.op (.word (bytesOfMask b.mask))] }) rfl hdecode).trans
      (exec_query b _)
  rw [run_two (step_query hseq hin) hquery, answerQuery]
  simp [hseq]

end Sys2Proof.Proofs
end

section
/-! What every operation and every input can do to the boundary: which of them keep it, which registers of it the others
write (10_state R45), and that all but ROUND and DECBYTE answer a next state. -/

namespace Sys2Proof.Proofs

open Sys2Proof.Machine Sys2Proof.Laws

/-! ### The operations of the codec -/

/-- The boundary registers, the delivery, the sequencer, the inbox and the outputs are as before. -/
structure BoundaryKept (s u : State) : Prop where
  pipe : u.pipe = s.pipe
  delivered : u.delivered = s.delivered
  seq : u.ports.seq = s.ports.seq
  inbox : u.ports.inbox = s.ports.inbox
  outbox : u.ports.outbox = s.ports.outbox

theorem execLenchk_next {s u : State} (h : execLenchk s = .next u) :
    (s.delivered.length = 15 ∧ u = noteRaised none s) ∨
      (s.delivered.length ≠ 15 ∧ u = raise (.malformedLength s.delivered.length) s) := by
  by_cases hl : s.delivered.length = 15
  · exact .inl ⟨hl, next_inj (h.symm.trans (execLenchk_fifteen hl))⟩
  · exact .inr ⟨hl, next_inj (h.symm.trans (execLenchk_wrongLength hl))⟩

/-- Every operation but FRAME and KEYOUT is the codec's own. -/
theorem exec_boundaryKept {i : Instr} {s u : State} (h : exec i s = .next u) (hf : i ≠ .frame) (hk : i ≠ .keyout) :
    BoundaryKept s u := by
  cases i with
  | frame => exact absurd rfl hf
  | keyout => exact absurd rfl hk
  | round =>
    obtain ⟨hu, -⟩ := execRound_frame h
    rw [hu]
    exact ⟨rfl, rfl, rfl, rfl, rfl⟩
  | decbyte j =>
    obtain ⟨t1, t2, t3, rfl⟩ := execDecbyte_next h
    exact ⟨rfl, rfl, rfl, rfl, rfl⟩
  | decode =>
    obtain ⟨d, w, rfl⟩ := execDecode_next h
    exact ⟨rfl, rfl, rfl, rfl, rfl⟩
  | lenchk =>
    obtain ⟨-, rfl⟩ | ⟨-, rfl⟩ := execLenchk_next h
    · exact ⟨rfl, rfl, rfl, rfl, rfl⟩
    · exact ⟨rfl, rfl, rfl, rfl, rfl⟩
  | _ =>
    obtain rfl := next_inj h
    exact ⟨rfl, rfl, rfl, rfl, rfl⟩

theorem execFrame_total (s : State) : ∃ u, execFrame s = .next u := by
  by_cases hp : s.pipe.pstate = .streaming
  · obtain ⟨x, -, hrun⟩ := execFrame_run hp
    exact ⟨_, hrun⟩
  · exact ⟨_, execFrame_outside hp⟩

/-- Only a table index can stop an operation, and only ROUND and DECBYTE form one outside a frame. -/
theorem exec_total {i : Instr} (s : State) (hr : i ≠ .round) (hd : ∀ j, i ≠ .decbyte j) : ∃ u, exec i s = .next u := by
  cases i with
  | round => exact absurd rfl hr
  | decbyte j => exact absurd rfl (hd j)
  | decode => exact execDecode_total s
  | frame => exact execFrame_total s
  | lenchk =>
    by_cases hl : s.delivered.length = 15
    · exact ⟨_, execLenchk_fifteen hl⟩
    · exact ⟨_, execLenchk_wrongLength hl⟩
  | _ => exact ⟨_, rfl⟩

/-! ### FRAME and KEYOUT -/

/-- FRAME keeps the boundary, or moves REQ and, where its re-arm fails, PSTATE. -/
theorem execFrame_pipe {s u : State} (h : execFrame s = .next u) :
    u.pipe = s.pipe ∨ u.pipe = { s.pipe with req := .inFlight } ∨
      u.pipe = { s.pipe with req := .none, pstate := .closed } := by
  obtain ⟨-, rfl⟩ | ⟨-, x, hx, rfl⟩ := execFrame_cases h
  · exact .inl rfl
  · obtain ⟨hpipe, -⟩ := hx.boundary
    rw [← hpipe]
    exact .inr (rearm_pipe x)

theorem rearm_seq (s : State) : (rearm s).ports.seq = s.ports.seq := by
  obtain ⟨new, hports, -⟩ := rearm_ports s
  rw [hports]

theorem rearm_inbox (s : State) : (rearm s).ports.inbox = s.ports.inbox := by
  obtain ⟨new, hports, -⟩ := rearm_ports s
  rw [hports]

/-- FRAME takes no input, leaves LEN alone and does not move the sequencer. -/
theorem execFrame_kept {s u : State} (h : execFrame s = .next u) :
    u.delivered = s.delivered ∧ u.ports.seq = s.ports.seq ∧ u.ports.inbox = s.ports.inbox := by
  obtain ⟨-, rfl⟩ | ⟨-, x, hx, rfl⟩ := execFrame_cases h
  · exact ⟨rfl, rfl, rfl⟩
  · obtain ⟨-, hdelivered, hseq, hinbox, -⟩ := hx.boundary
    rw [rearm_delivered, rearm_seq, rearm_inbox]
    exact ⟨hdelivered, hseq, hinbox⟩

/-- KEYOUT goes on, its log perhaps a line longer, or, only under `abort`, gives up the open. -/
theorem execKeyout_next {s u : State} (h : execKeyout s = .next u) :
    (∃ log, u = { sendKey s with ports.log := log }) ∨
      (s.par.failPolicy = .abort ∧ u = abandonOpen .handshakeFailed (sendKey s)) := by
  by_cases hk : s.ports.answers.sendOk = true ∨ s.par.failPolicy = .proceed
  · exact .inl ⟨_, next_inj (h.symm.trans (execKeyout_proceeds hk))⟩
  · obtain ⟨hsend, hpolicy⟩ := not_or.1 hk
    have habort : s.par.failPolicy = .abort := by
      cases hp : s.par.failPolicy with
      | proceed => exact absurd hp hpolicy
      | abort => rfl
    have hrun := execKeyout_failed (Bool.eq_false_iff.2 hsend)
    rw [handshakeFailed_abort (s := sendKey s) habort] at hrun
    exact .inr ⟨habort, next_inj (h.symm.trans hrun)⟩

/-- No operation takes an input. -/
theorem exec_inbox {i : Instr} {s u : State} (h : exec i s = .next u) : u.ports.inbox = s.ports.inbox := by
  by_cases hf : i = .frame
  · subst hf
    obtain ⟨-, -, hinbox⟩ := execFrame_kept h
    exact hinbox
  · by_cases hk : i = .keyout
    · subst hk
      obtain ⟨log, rfl⟩ | ⟨-, rfl⟩ := execKeyout_next h
      · rfl
      · rfl
    · exact (exec_boundaryKept h hf hk).inbox

/-! ### Inputs -/

/-- What taking an input can be: nothing, an event handled with its answers, or a query selected. -/
theorem takeInput_cases (s : State) :
    takeInput s = s ∨
    (∃ e a rest, s.ports.inbox = .event e a :: rest ∧ takeInput s = onEvent e (taking a rest s)) ∨
    (∃ b rest, s.ports.inbox = .query b :: rest ∧
      takeInput s = { s with ports.inbox := rest, ports.seq := [.op (.word (bytesOfMask b.mask))] }) := by
  rw [takeInput]
  split
  · exact .inl rfl
  · next e a rest hin =>
    split_ifs
    · exact .inl rfl
    · exact .inr (.inl ⟨e, a, rest, hin, rfl⟩)
  · next b rest hin => exact .inr (.inr ⟨b, rest, hin, rfl⟩)

@[simp] theorem cancelRequest_pipe (s : State) : (cancelRequest s).pipe = s.pipe := by
  rw [cancelRequest_eq, putOut_pipe]

@[simp] theorem cancelRequest_seq (s : State) : (cancelRequest s).ports.seq = s.ports.seq := by
  rw [cancelRequest_eq, putOut_ports]

@[simp] theorem cancelRequest_delivered (s : State) : (cancelRequest s).delivered = s.delivered := by
  rw [cancelRequest_eq, putOut_delivered]

/-- What an event does, by its handler and the state it finds (43_pipeline R210, R216 to R222). -/
inductive EventRun (s : State) : Event → State → Prop
  | ignored (e : Event) : EventRun s e s
  | data (bytes : List Byte) (h : acceptsCompletion s = true) :
      EventRun s (.data bytes) { s with delivered := bytes, pipe.req := .none, ports.seq := [.op (.phase .frame)] }
  | timeout (h : acceptsCompletion s = true) : EventRun s .timeout (raise .transportTimeout s)
  | shutdown (h : acceptsCompletion s = true) : EventRun s .shutdown (raise .transportShutdown s)
  | transient (h : acceptsCompletion s = true) :
      EventRun s .transient (raise .transportTransient { s with pipe.req := .none })
  | openBegins (hp : s.pipe.pstate = .closed) :
      EventRun s .openReq { beginOpening s with ports.seq := [.op (.phase .keyout), .openArm] }
  | openRefused (hp : s.pipe.pstate = .closed) : EventRun s .openReq (raise .resourceExhaustion (beginOpening s))
  | close (hp : s.pipe.pstate = .streaming ∨ s.pipe.pstate = .suspended) :
      EventRun s .closeReq
        (cancelRequest { s with pipe.pstate := .closing, pipe.lock := .held, ports.seq := [.closeDone] })
  | suspend (hp : s.pipe.pstate = .streaming) :
      EventRun s .suspendReq
        (cancelRequest { s with pipe.wasStreaming := true, pipe.lock := .held, ports.seq := [.suspendDone] })
  | suspendElsewhere (hp : s.pipe.pstate ≠ .streaming) : EventRun s .suspendReq { s with pipe.wasStreaming := false }
  | resume (hp : s.pipe.pstate = .suspended) (hw : s.pipe.wasStreaming = true) :
      EventRun s .resumeReq { s with pipe.lock := .held, ports.seq := [.resumeArm] }

theorem onEvent_run (e : Event) (s : State) : EventRun s e (onEvent e s) := by
  cases e with
  | data bytes =>
    rw [onEvent, onData]
    split_ifs with h
    · exact .data bytes h
    · exact .ignored _
  | timeout =>
    rw [onEvent, onTimeout]
    split_ifs with h
    · exact .timeout h
    · exact .ignored _
  | shutdown =>
    rw [onEvent, onShutdown]
    split_ifs with h
    · exact .shutdown h
    · exact .ignored _
  | transient =>
    rw [onEvent, onTransient]
    split_ifs with h
    · exact .transient h
    · exact .ignored _
  | openReq =>
    rw [onEvent, onOpen]
    split_ifs with hp
    · exact .openBegins hp
    · exact .openRefused hp
    · exact .ignored _
  | closeReq =>
    rw [onEvent, onClose]
    split_ifs with hp
    · exact .close hp
    · exact .ignored _
  | suspendReq =>
    rw [onEvent, onSuspend]
    split_ifs with hp
    · exact .suspend hp
    · exact .suspendElsewhere hp
  | resumeReq =>
    rw [onEvent, onResume]
    split_ifs with h
    · obtain ⟨hp, hw⟩ := h
      exact .resume hp hw
    · exact .ignored _

theorem finishArm_seq (s : State) : (finishArm s).ports.seq = s.ports.seq := by
  rw [finishArm]
  split_ifs <;> rfl

theorem finishArm_delivered (s : State) : (finishArm s).delivered = s.delivered := by
  rw [finishArm]
  split_ifs <;> rfl

end Sys2Proof.Proofs
end

section
/-! Who writes what (10_state R45): the registers of the codec and of the boundary, first under the operations, then under
the steps. -/

namespace Sys2Proof.Proofs

open Sys2Proof.Machine Sys2Proof.Laws

/-! ### The codec's registers under the operations -/

theorem execRound_codec {s u : State} (h : execRound s = .next u) : codecWrittenOnlyBy (fun j => .round = j) s u := by
  obtain ⟨hu, hsb, hsa, hok, hi, hrnd, -, -⟩ := execRound_frame h
  generalize u.work = w at *
  subst hu
  simp [codecWrittenOnlyBy, hsb, hsa, hok, hi, hrnd]

theorem execDecbyte_codec {i : Fin 13} {s u : State} (h : execDecbyte i s = .next u) :
    codecWrittenOnlyBy (fun j => .decbyte i = j) s u := by
  obtain ⟨t1, t2, t3, rfl⟩ := execDecbyte_next h
  simp [codecWrittenOnlyBy, decbyteWork_frame]

theorem execDecode_codec {s u : State} (h : execDecode s = .next u) : codecWrittenOnlyBy (fun j => .decode = j) s u := by
  obtain ⟨-, -, hu, hsb, hsa, hok⟩ := execDecode_frame h
  generalize u.work = w at *
  generalize u.dec = d at *
  subst hu
  simp [codecWrittenOnlyBy, hsb, hsa, hok]

theorem execLenchk_codec {s u : State} (h : execLenchk s = .next u) : codecWrittenOnlyBy (fun j => .lenchk = j) s u := by
  obtain ⟨-, rfl⟩ | ⟨hl, rfl⟩ := execLenchk_next h
  · simp [codecWrittenOnlyBy]
  · simp [codecWrittenOnlyBy, hl]

theorem execFrame_codec {s u : State} (h : execFrame s = .next u) : codecWrittenOnlyBy (fun j => .frame = j) s u := by
  simp [codecWrittenOnlyBy, execFrame_par h]

theorem execKeyout_registers {s u : State} (h : execKeyout s = .next u) :
    u.raw = s.raw ∧ u.dec = s.dec ∧ u.work = s.work ∧ u.gun = s.gun := by
  obtain ⟨log, rfl⟩ | ⟨-, rfl⟩ := execKeyout_next h
  · exact ⟨rfl, rfl, rfl, rfl⟩
  · exact ⟨rfl, rfl, rfl, rfl⟩

theorem exec_codec {i : Instr} {s u : State} (h : exec i s = .next u) : codecWrittenOnlyBy (fun j => i = j) s u := by
  cases i with
  | round => exact execRound_codec h
  | decbyte j => exact execDecbyte_codec h
  | decode => exact execDecode_codec h
  | lenchk => exact execLenchk_codec h
  | frame => exact execFrame_codec h
  | keyout => exact codecWrittenOnlyBy_of_codec (execKeyout_registers h) (execKeyout_par h)
  | _ =>
    obtain rfl := next_inj h
    simp [codecWrittenOnlyBy]

/-! ### The boundary registers -/

/-- From `p` to `q` each boundary register changed only if the condition given for it holds; DIAG did not. -/
structure PipeWrittenOnlyBy (pstate lock req wasStreaming handshakeSent : Prop) (p q : Pipe) : Prop where
  pstate : q.pstate ≠ p.pstate → pstate
  lock : q.lock ≠ p.lock → lock
  req : q.req ≠ p.req → req
  wasStreaming : q.wasStreaming ≠ p.wasStreaming → wasStreaming
  handshakeSent : q.handshakeSent ≠ p.handshakeSent → handshakeSent
  diag : q.diag = p.diag

section
variable {a b c d e a' b' c' d' e' : Prop} {p q : Pipe}

theorem PipeWrittenOnlyBy.refl : PipeWrittenOnlyBy a b c d e p p :=
  ⟨absurd rfl, absurd rfl, absurd rfl, absurd rfl, absurd rfl, rfl⟩

theorem PipeWrittenOnlyBy.mono (h : PipeWrittenOnlyBy a b c d e p q) (ha : a → a') (hb : b → b') (hc : c → c')
    (hd : d → d') (he : e → e') : PipeWrittenOnlyBy a' b' c' d' e' p q :=
  ⟨ha ∘ h.pstate, hb ∘ h.lock, hc ∘ h.req, hd ∘ h.wasStreaming, he ∘ h.handshakeSent, h.diag⟩

end

theorem execFrame_writes {s u : State} (h : execFrame s = .next u) :
    PipeWrittenOnlyBy True False True False False s.pipe u.pipe := by
  obtain hpipe | hpipe | hpipe := execFrame_pipe h <;> rw [hpipe]
  · exact .refl
  · constructor <;> simp
  · constructor <;> simp

theorem execKeyout_writes {s u : State} (h : execKeyout s = .next u) :
    PipeWrittenOnlyBy (s.par.failPolicy = .abort) (s.par.failPolicy = .abort) False False True s.pipe u.pipe := by
  obtain ⟨log, rfl⟩ | ⟨habort, rfl⟩ := execKeyout_next h
  · constructor <;> simp
  · constructor <;> simp [habort]

theorem exec_writes {i : Instr} {s u : State} (h : exec i s = .next u) :
    PipeWrittenOnlyBy (i = .frame ∨ (i = .keyout ∧ s.par.failPolicy = .abort))
      (i = .keyout ∧ s.par.failPolicy = .abort) (i = .frame) False (i = .keyout) s.pipe u.pipe := by
  by_cases hf : i = .frame
  · subst hf
    exact (execFrame_writes h).mono (fun _ => .inl rfl) False.elim (fun _ => rfl) id False.elim
  · by_cases hk : i = .keyout
    · subst hk
      exact (execKeyout_writes h).mono (fun ha => .inr ⟨rfl, ha⟩) (fun ha => ⟨rfl, ha⟩) False.elim id fun _ => rfl
    · rw [(exec_boundaryKept h hf hk).pipe]
      exact .refl

theorem exec_delivered {i : Instr} {s u : State} (h : exec i s = .next u) : u.delivered = s.delivered := by
  by_cases hf : i = .frame
  · subst hf
    obtain ⟨hdelivered, -⟩ := execFrame_kept h
    exact hdelivered
  · by_cases hk : i = .keyout
    · subst hk
      obtain ⟨log, rfl⟩ | ⟨-, rfl⟩ := execKeyout_next h
      · rfl
      · rfl
    · exact (exec_boundaryKept h hf hk).delivered

/-! ### Under the inputs -/

/-- The boundary registers each event may write. -/
theorem EventRun.writes {e : Event} {s u : State} (h : EventRun s e u) :
    PipeWrittenOnlyBy (e = .openReq ∨ e = .closeReq ∨ e = .shutdown ∨ e = .transient)
      (e = .openReq ∨ e = .closeReq ∨ e = .suspendReq ∨ e = .resumeReq)
      ((∃ bytes, e = .data bytes) ∨ e = .shutdown ∨ e = .transient) (e = .suspendReq) (e = .openReq) s.pipe u.pipe := by
  cases h with
  | ignored => exact .refl
  | transient =>
    rw [raise, noteRaised_pipe]
    obtain hpipe | hpipe := rearm_pipe (addLog .transient { s with pipe.req := .none }) <;> rw [hpipe]
    · constructor <;> simp
    · constructor <;> simp
  | data => constructor <;> simp
  | timeout => exact .refl
  | shutdown => constructor <;> simp [raise]
  | openBegins => constructor <;> simp
  | openRefused => constructor <;> simp [raise]
  | close => constructor <;> simp
  | suspend => constructor <;> simp
  | suspendElsewhere => constructor <;> simp
  | resume => constructor <;> simp

/-- Only a delivery changes LEN. -/
theorem EventRun.delivered {e : Event} {s u : State} (h : EventRun s e u) (hne : u.delivered ≠ s.delivered) :
    ∃ bytes, e = .data bytes := by
  cases h with
  | data bytes => exact ⟨bytes, rfl⟩
  | close => exact absurd (cancelRequest_delivered _) hne
  | suspend => exact absurd (cancelRequest_delivered _) hne
  | transient => exact absurd (raise_delivered _ _) hne
  | _ => exact absurd rfl hne

/-! ### Under the steps -/

/-- The registers of the codec are written by operations alone. -/
theorem step_codec {s u : State} (h : step s = .next u) : codecWrittenOnlyBy (runsOperation s) s u := by
  obtain ⟨sel, rest, i, hseq, hi, hx⟩ | ⟨p, rest, -, -, rfl⟩ | ⟨rest, -, rfl⟩ | ⟨rest, -, rfl⟩ | ⟨-, rfl⟩ := step_cases h
  · have hx' : codecWrittenOnlyBy (fun j => i = j) s u := exec_codec (s := advance rest s) hx
    refine codecWrittenOnlyBy_mono ?_ hx'
    rintro _ rfl
    exact ⟨sel, rest, hseq, hi⟩
  · exact codecWrittenOnlyBy_of_codec (finishArm_codec _) (finishArm_par _)
  · exact codecWrittenOnlyBy_of_codec ⟨rfl, rfl, rfl, rfl⟩ rfl
  · exact codecWrittenOnlyBy_of_codec ⟨rfl, rfl, rfl, rfl⟩ rfl
  · exact codecWrittenOnlyBy_of_codec (takeInput_codec s) (takeInput_par s)

/-- A lifecycle program's end writes PSTATE, LOCK and REQ. -/
theorem finishArm_writes (s : State) : PipeWrittenOnlyBy True True True False False s.pipe (finishArm s).pipe := by
  rw [finishArm]
  split_ifs
  · constructor <;> simp
  · constructor <;> simp

theorem finishSuspend_writes (s : State) :
    PipeWrittenOnlyBy True True True False False s.pipe (finishSuspend s).pipe := by constructor <;> simp

theorem finishClose_writes (s : State) :
    PipeWrittenOnlyBy True True True False False s.pipe (finishClose s).pipe := by constructor <;> simp

/-- The boundary registers under an input. -/
theorem takeInput_writes {s : State} (hseq : s.ports.seq = []) :
    PipeWrittenOnlyBy
      (takesEvent s .openReq ∨ takesEvent s .closeReq ∨ takesEvent s .shutdown ∨ takesEvent s .transient)
      (takesEvent s .openReq ∨ takesEvent s .closeReq ∨ takesEvent s .suspendReq ∨ takesEvent s .resumeReq)
      ((∃ bytes, takesEvent s (.data bytes)) ∨ takesEvent s .shutdown ∨ takesEvent s .transient)
      (takesEvent s .suspendReq) (takesEvent s .openReq) s.pipe (takeInput s).pipe := by
  obtain h | ⟨e, a, rest, hin, h⟩ | ⟨b, rest, -, h⟩ := takeInput_cases s <;> rw [h]
  · exact .refl
  · have takes : ∀ {x}, e = x → takesEvent s x := by
      rintro _ rfl
      exact ⟨hseq, a, rest, hin⟩
    exact (onEvent_run e (taking a rest s)).writes.mono
      (Or.imp takes (Or.imp takes (Or.imp takes takes))) (Or.imp takes (Or.imp takes (Or.imp takes takes)))
      (Or.imp (Exists.imp fun _ => takes) (Or.imp takes takes)) takes takes
  · exact .refl

/-- The boundary registers a step from `s` may write, by what the step runs or takes. -/
def StepWrites (s : State) (q : Pipe) : Prop :=
  PipeWrittenOnlyBy
    (runsOperation s .frame ∨ runsOperation s .keyout ∨ runsLifecycle s ∨
      takesEvent s .openReq ∨ takesEvent s .closeReq ∨ takesEvent s .shutdown ∨ takesEvent s .transient)
    (runsOperation s .keyout ∨ runsLifecycle s ∨
      takesEvent s .openReq ∨ takesEvent s .closeReq ∨ takesEvent s .suspendReq ∨ takesEvent s .resumeReq)
    (runsOperation s .frame ∨ runsLifecycle s ∨
      (∃ bytes, takesEvent s (.data bytes)) ∨ takesEvent s .shutdown ∨ takesEvent s .transient)
    (takesEvent s .suspendReq) (runsOperation s .keyout ∨ takesEvent s .openReq) s.pipe q

theorem stepWrites_of_lifecycle {s : State} {q : Pipe} (hlife : runsLifecycle s)
    (hw : PipeWrittenOnlyBy True True True False False s.pipe q) : StepWrites s q :=
  hw.mono (fun _ => .inr (.inr (.inl hlife))) (fun _ => .inr (.inl hlife)) (fun _ => .inr (.inl hlife)) False.elim
    False.elim

theorem step_writes {s u : State} (h : step s = .next u) : StepWrites s u.pipe := by
  obtain ⟨sel, rest, i, hseq, hi, hx⟩ | ⟨p, rest, hseq, hp, rfl⟩ | ⟨rest, hseq, rfl⟩ | ⟨rest, hseq, rfl⟩ | ⟨hseq, rfl⟩ :=
    step_cases h
  · have runs : ∀ {j}, i = j → runsOperation s j := by
      rintro _ rfl
      exact ⟨sel, rest, hseq, hi⟩
    exact (exec_writes hx).mono (Or.imp runs fun hk => .inl (runs hk.1)) (fun hk => .inl (runs hk.1))
      (fun hf => .inl (runs hf)) False.elim fun hk => .inl (runs hk)
  · refine stepWrites_of_lifecycle ?_ (finishArm_writes (advance rest s))
    obtain rfl | rfl := hp
    · exact .inl ⟨rest, hseq⟩
    · exact .inr (.inr (.inr ⟨rest, hseq⟩))
  · exact stepWrites_of_lifecycle (.inr (.inl ⟨rest, hseq⟩)) (finishSuspend_writes (advance rest s))
  · exact stepWrites_of_lifecycle (.inr (.inr (.inl ⟨rest, hseq⟩))) (finishClose_writes (advance rest s))
  · exact (takeInput_writes hseq).mono (fun x => .inr (.inr (.inr x))) (fun x => .inr (.inr x))
      (fun x => .inr (.inr x)) id .inr

/-- LEN changes only where a delivery is taken. -/
theorem step_delivered {s u : State} (h : step s = .next u) (hne : u.delivered ≠ s.delivered) :
    ∃ bytes, takesEvent s (.data bytes) := by
  obtain ⟨sel, rest, i, -, -, hx⟩ | ⟨p, rest, -, -, rfl⟩ | ⟨rest, -, rfl⟩ | ⟨rest, -, rfl⟩ | ⟨hseq, rfl⟩ := step_cases h
  · exact absurd (exec_delivered hx) hne
  · exact absurd (finishArm_delivered _) hne
  · exact absurd rfl hne
  · exact absurd rfl hne
  · obtain h | ⟨e, a, rest, hin, h⟩ | ⟨b, rest, -, h⟩ := takeInput_cases s <;> rw [h] at hne
    · exact absurd rfl hne
    · obtain ⟨bytes, rfl⟩ := (onEvent_run e (taking a rest s)).delivered hne
      exact ⟨bytes, hseq, a, rest, hin⟩
    · exact absurd rfl hne

/-- Settles O46: the registers' writers under the operations, and under the steps. -/
theorem eachRegisterHasItsWriters : Obligations.EachRegisterHasItsWriters := by
  refine ⟨fun i s u h => ?_, fun s u h => ?_⟩
  · obtain ⟨hpstate, hlock, hreq, hwas, hsent, hdiag⟩ := exec_writes h
    exact ⟨exec_codec h, hpstate, hlock, hreq, hsent, by_contra hwas, hdiag, exec_delivered h⟩
  · obtain ⟨hpstate, hlock, hreq, hwas, hsent, hdiag⟩ := step_writes h
    exact ⟨step_codec h, step_delivered h, hpstate, hlock, hreq, hwas, hsent, hdiag⟩

end Sys2Proof.Proofs
end

section
/-! The outputs (20_memory section 7, 43_pipeline R213, 60_exceptions R251): every step appends to them, and an update only
where a FRAME accepts. -/

namespace Sys2Proof.Proofs

open Sys2Proof.Machine Sys2Proof.Laws

/-- From `s` to `u` the outputs grew by a list that holds no update. -/
def AppendsNoUpdate (s u : State) : Prop :=
  ∃ new, u.ports.outbox = s.ports.outbox ++ new ∧ ∀ g, Output.update g ∉ new

theorem AppendsNoUpdate.of_eq {s u : State} (h : u.ports.outbox = s.ports.outbox) : AppendsNoUpdate s u :=
  ⟨[], by rw [h, List.append_nil], by simp⟩

theorem AppendsNoUpdate.refl (s : State) : AppendsNoUpdate s s := .of_eq rfl

/-- The outputs of a re-arm: one request, and one report if it failed. -/
def RearmOutputs (new : List Output) : Prop := new = [.armRequest] ∨ new = [.armRequest, .errorReport .armFailed]

theorem RearmOutputs.no_update {new : List Output} (h : RearmOutputs new) (g : Update) : Output.update g ∉ new := by
  obtain rfl | rfl := h
  · simp
  · simp

theorem rearm_outbox (s : State) : ∃ new, (rearm s).ports.outbox = s.ports.outbox ++ new ∧ RearmOutputs new := by
  obtain ⟨new, hports, hnew⟩ := rearm_ports s
  exact ⟨new, by rw [hports], hnew⟩

theorem rearm_appendsNoUpdate (s : State) : AppendsNoUpdate s (rearm s) := by
  obtain ⟨new, hout, hnew⟩ := rearm_outbox s
  exact ⟨new, hout, hnew.no_update⟩

/-! ### The operations -/

/-- The frame delivered to `s` has 15 bytes that authenticate, and `s` is Streaming (43_pipeline R210, R213). -/
def AcceptsFrame (s : State) : Prop :=
  s.pipe.pstate = .streaming ∧ s.delivered.length = 15 ∧
    frameSum s.par.chkOrder (deliveredByte s) = keyAt s.par 7

/-- From `s` to `u` the outputs grew by one update, its marker and a re-arm. -/
def AppendsUpdate (s u : State) : Prop :=
  ∃ g tail, u.ports.outbox = s.ports.outbox ++ ([.update g, .marker] ++ tail) ∧ RearmOutputs tail

theorem execFrame_outputs {s u : State} (h : execFrame s = .next u) :
    AppendsNoUpdate s u ∨ (AcceptsFrame s ∧ AppendsUpdate s u) := by
  obtain ⟨-, rfl⟩ | ⟨hp, x, hx, rfl⟩ := execFrame_cases h
  · exact .inl (.refl u)
  · obtain ⟨tail, hout, htail⟩ := rearm_outbox x
    obtain hx | ⟨hl, hsum, hx⟩ := hx.outbox
    · exact .inl ⟨tail, by rw [hout, hx], htail.no_update⟩
    · exact .inr ⟨⟨hp, hl, hsum⟩, _, tail, by rw [hout, hx, List.append_assoc], htail⟩

theorem execKeyout_outputs {s u : State} (h : execKeyout s = .next u) : AppendsNoUpdate s u := by
  obtain ⟨log, rfl⟩ | ⟨-, rfl⟩ := execKeyout_next h
  · exact ⟨_, rfl, by simp⟩
  · exact ⟨[.keyWrite (keyBytes s.par), .errorReport .handshakeFailed], by simp, by simp⟩

theorem exec_outputs {i : Instr} {s u : State} (h : exec i s = .next u) :
    AppendsNoUpdate s u ∨ (i = .frame ∧ AcceptsFrame s ∧ AppendsUpdate s u) := by
  by_cases hf : i = .frame
  · subst hf
    exact (execFrame_outputs h).imp_right fun hu => ⟨rfl, hu⟩
  · by_cases hk : i = .keyout
    · subst hk
      exact .inl (execKeyout_outputs h)
    · exact .inl (.of_eq (exec_boundaryKept h hf hk).outbox)

/-! ### The inputs and the places -/

theorem cancelRequest_appendsNoUpdate (s : State) : AppendsNoUpdate s (cancelRequest s) := by
  refine ⟨if s.pipe.req = .inFlight then [.cancelRequest] else [], by rw [cancelRequest_eq, putOut_ports], fun g => ?_⟩
  split_ifs <;> simp

theorem EventRun.appendsNoUpdate {e : Event} {s u : State} (h : EventRun s e u) : AppendsNoUpdate s u := by
  cases h with
  | ignored => exact .refl _
  | data => exact .of_eq rfl
  | timeout => exact .of_eq rfl
  | shutdown => exact ⟨_, rfl, by simp⟩
  | transient => exact rearm_appendsNoUpdate (addLog .transient { s with pipe.req := .none })
  | openBegins => exact .of_eq rfl
  | openRefused => exact ⟨_, rfl, by simp⟩
  | close => exact cancelRequest_appendsNoUpdate { s with
      pipe.pstate := .closing, pipe.lock := .held, ports.seq := [.closeDone] }
  | suspend => exact cancelRequest_appendsNoUpdate { s with
      pipe.wasStreaming := true, pipe.lock := .held, ports.seq := [.suspendDone] }
  | suspendElsewhere => exact .of_eq rfl
  | resume => exact .of_eq rfl

theorem takeInput_appendsNoUpdate (s : State) : AppendsNoUpdate s (takeInput s) := by
  obtain h | ⟨e, a, rest, -, h⟩ | ⟨b, rest, -, h⟩ := takeInput_cases s <;> rw [h]
  · exact .refl s
  · exact (onEvent_run e (taking a rest s)).appendsNoUpdate
  · exact .of_eq rfl

theorem finishArm_appendsNoUpdate (s : State) : AppendsNoUpdate s (finishArm s) := by
  rw [finishArm]
  split_ifs
  · exact ⟨_, rfl, by simp⟩
  · exact ⟨_, rfl, by simp⟩

/-! ### Every step -/

/-- A step puts out no update, or it runs a FRAME that accepts. -/
theorem step_outputs {s u : State} (h : step s = .next u) :
    AppendsNoUpdate s u ∨ (runsOperation s .frame ∧ AcceptsFrame s ∧ AppendsUpdate s u) := by
  obtain ⟨sel, rest, i, hseq, hi, hx⟩ | ⟨p, rest, -, -, rfl⟩ | ⟨rest, -, rfl⟩ | ⟨rest, -, rfl⟩ | ⟨-, rfl⟩ := step_cases h
  · obtain hquiet | ⟨rfl, haccepts, hupdate⟩ := exec_outputs hx
    · exact .inl hquiet
    · exact .inr ⟨⟨sel, rest, hseq, hi⟩, haccepts, hupdate⟩
  · exact .inl (finishArm_appendsNoUpdate (advance rest s))
  · exact .inl ⟨_, rfl, by simp⟩
  · exact .inl (.of_eq rfl)
  · exact .inl (takeInput_appendsNoUpdate s)

/-- Settles O44: with an update or without, the outputs are extended. -/
theorem outputsAreOnlyAppended : Obligations.OutputsAreOnlyAppended := by
  intro s u h
  obtain ⟨new, hout, -⟩ | ⟨-, -, g, tail, hout, -⟩ := step_outputs h
  · exact ⟨_, hout⟩
  · exact ⟨_, hout⟩

/-- Settles O45: only the step of an accepted FRAME appends an update, and it is the first of what it appends. -/
theorem onlyAuthenticFramesReachTheOutput : Obligations.OnlyAuthenticFramesReachTheOutput := by
  intro s u new g h hnew hg
  obtain ⟨quiet, hout, hquiet⟩ | ⟨hruns, ⟨hp, hl, hsum⟩, g', tail, hout, htail⟩ := step_outputs h
  · obtain rfl := List.append_cancel_left (hnew.symm.trans hout)
    exact absurd hg (hquiet g)
  · obtain rfl := List.append_cancel_left (hnew.symm.trans hout)
    obtain rfl : g = g' := by simpa [htail.no_update g] using hg
    refine ⟨hruns, hp, hl, hsum, ?_⟩
    obtain rfl | rfl := htail
    · exact .inl rfl
    · exact .inr rfl

end Sys2Proof.Proofs
end

section
/-! The invariant (10_state section 4, 43_pipeline sections 2 and 4): the codec's buffers and key index under every
operation, the boundary registers at each position of the sequencer, and what a sound state cannot do. -/

namespace Sys2Proof.Proofs

open Sys2Proof.Machine Sys2Proof.Laws

/-! ### The codec's part -/

/-- RAW and DEC are canonical and KIDX is legal. -/
structure CodecSound (s : State) : Prop where
  raw : Memory.wf rawSize s.raw = true
  dec : Memory.wf decSize s.dec = true
  kidx : s.work.kidx ≠ 0

theorem codecSound_iff (s : State) : CodecSound s ↔ buffersOk s = true ∧ keyIndexOk s = true := by
  rw [buffersOk, keyIndexOk, Bool.and_eq_true, bne_iff_ne]
  exact ⟨fun ⟨hr, hd, hk⟩ => ⟨⟨hr, hd⟩, hk⟩, fun ⟨⟨hr, hd⟩, hk⟩ => ⟨hr, hd, hk⟩⟩

theorem CodecSound.of_registers {s u : State} (hs : CodecSound s)
    (h : u.raw = s.raw ∧ u.dec = s.dec ∧ u.work = s.work ∧ u.gun = s.gun) : CodecSound u := by
  obtain ⟨hraw, hdec, hwork, -⟩ := h
  exact ⟨hraw ▸ hs.raw, hdec ▸ hs.dec, hwork ▸ hs.kidx⟩

theorem execDecode_sound {s u : State} (hs : CodecSound s) (h : execDecode s = .next u) : CodecSound u := by
  obtain ⟨hwf, -⟩ := exec_decode_dec hs.dec h
  obtain ⟨-, hkidx, hu, -⟩ := execDecode_frame h
  refine ⟨?_, hwf, by rw [hkidx]; decide⟩
  rw [hu]
  exact hs.raw

theorem loadRaw_sound {s : State} (hs : CodecSound s) (hl : s.delivered.length = 15) : CodecSound (loadRaw s) :=
  ⟨ofBytes_wf (by rw [hl]; decide), hs.dec, hs.kidx⟩

theorem undefinedRaw_sound {s : State} (hs : CodecSound s) : CodecSound (undefinedRaw s) :=
  ⟨ofBytes_wf (by simp), hs.dec, hs.kidx⟩

theorem gated_sound {s : State} (hs : CodecSound s) (hl : s.delivered.length = 15) : CodecSound (gated s) :=
  ⟨(loadRaw_sound hs hl).raw, hs.dec, hs.kidx⟩

/-- A malformed delivery makes RAW undefined, and nothing else of the codec changes. -/
theorem raise_malformedLength_sound {s : State} (hs : CodecSound s) (n : Nat) :
    CodecSound (raise (.malformedLength n) s) := (undefinedRaw_sound hs).of_registers ⟨rfl, rfl, rfl, rfl⟩

theorem FrameRun.sound {s x : State} (hs : CodecSound s) (h : FrameRun s x) : CodecSound x := by
  cases h with
  | wrongLength => exact raise_malformedLength_sound hs _
  | rejected hl => exact (gated_sound hs hl).of_registers ⟨rfl, rfl, rfl, rfl⟩
  | accepted hl _ hd =>
    obtain ⟨hraw, hdec, hkidx⟩ := execDecode_sound (gated_sound hs hl) hd
    exact ⟨hraw, hdec, hkidx⟩

theorem execFrame_sound {s u : State} (hs : CodecSound s) (h : execFrame s = .next u) : CodecSound u := by
  obtain ⟨-, rfl⟩ | ⟨-, x, hx, rfl⟩ := execFrame_cases h
  · exact hs
  · have hx := hx.sound hs
    exact ⟨by rw [rearm_raw]; exact hx.raw, by rw [rearm_dec]; exact hx.dec, by rw [rearm_work]; exact hx.kidx⟩

/-- Every operation keeps the codec's part. -/
theorem exec_sound {i : Instr} {s u : State} (hs : CodecSound s) (h : exec i s = .next u) : CodecSound u := by
  cases i with
  | round =>
    obtain ⟨hu, -, -, -, -, -, -, hkidx⟩ := execRound_frame h
    refine ⟨?_, ?_, by rw [hkidx]; exact rotate_ne_zero _⟩
    · rw [hu]
      exact hs.raw
    · rw [hu]
      exact hs.dec
  | decbyte j =>
    obtain ⟨t1, t2, t3, rfl⟩ := execDecbyte_next h
    exact ⟨hs.raw, write_keeps_wf hs.dec j.isLt, rotate_ne_zero _⟩
  | decode => exact execDecode_sound hs h
  | frame => exact execFrame_sound hs h
  | keyout => exact hs.of_registers (execKeyout_registers h)
  | lenchk =>
    obtain ⟨-, rfl⟩ | ⟨-, rfl⟩ := execLenchk_next h
    · exact hs.of_registers ⟨rfl, rfl, rfl, rfl⟩
    · exact raise_malformedLength_sound hs _
  | _ =>
    obtain rfl := next_inj h
    exact ⟨hs.raw, hs.dec, hs.kidx⟩

/-- Every step keeps it, since inputs and places write no register of the codec. -/
theorem step_sound {s u : State} (hs : CodecSound s) (h : step s = .next u) : CodecSound u := by
  obtain ⟨sel, rest, i, -, -, hx⟩ | ⟨p, rest, -, -, rfl⟩ | ⟨rest, -, rfl⟩ | ⟨rest, -, rfl⟩ | ⟨-, rfl⟩ := step_cases h
  · exact exec_sound (hs.of_registers (u := advance rest s) ⟨rfl, rfl, rfl, rfl⟩) hx
  · exact hs.of_registers (finishArm_codec (advance rest s))
  · exact hs.of_registers ⟨rfl, rfl, rfl, rfl⟩
  · exact hs.of_registers ⟨rfl, rfl, rfl, rfl⟩
  · exact hs.of_registers (takeInput_codec s)

/-! ### The positions -/

theorem atRest_iff (p : Pipe) :
    atRest p = true ↔ p.lock = .free ∧
      ((p.pstate = .closed ∧ p.req = .none) ∨ (p.pstate = .suspended ∧ p.req = .none) ∨
        (p.pstate = .streaming ∧ p.req = .inFlight)) := by
  obtain ⟨pstate, lock, diag, req, was, sent⟩ := p
  cases lock <;> cases pstate <;> cases req <;> simp [atRest]

/-- The places of the sequencer's programs, each with what the boundary registers are there. -/
inductive Position (p : Pipe) : List SeqOp → Prop
  | rest (h : atRest p = true) : Position p []
  | frame (hl : p.lock = .free) (hp : p.pstate = .streaming) (hr : p.req = .none) : Position p [.op (.phase .frame)]
  | keyout (hl : p.lock = .held) (hp : p.pstate = .opening) (hr : p.req = .none) (hs : p.handshakeSent = false) :
      Position p [.op (.phase .keyout), .openArm]
  | openArm (hl : p.lock = .held) (hp : p.pstate = .opening) (hr : p.req = .none) (hs : p.handshakeSent = true) :
      Position p [.openArm]
  | suspendDone (hl : p.lock = .held) (hp : p.pstate = .streaming) (hr : p.req = .inFlight)
      (hw : p.wasStreaming = true) : Position p [.suspendDone]
  | closeDone (hl : p.lock = .held) (hp : p.pstate = .closing) : Position p [.closeDone]
  | resumeArm (hl : p.lock = .held) (hp : p.pstate = .suspended) (hr : p.req = .none) (hw : p.wasStreaming = true) :
      Position p [.resumeArm]
  | codec {sel : Sel} (hc : codecSel sel = true) (h : atRest p = true) : Position p [.op sel]

theorem positionOk_iff (seq : List SeqOp) (p : Pipe) : positionOk seq p = true ↔ Position p seq := by
  constructor
  · intro h
    unfold positionOk at h
    split at h
    · exact .rest h
    · obtain ⟨⟨hl, hp⟩, hr⟩ := by simpa using h
      exact .frame hl hp hr
    · obtain ⟨⟨⟨hl, hp⟩, hr⟩, hs⟩ := by simpa using h
      exact .keyout hl hp hr hs
    · obtain ⟨⟨⟨hl, hp⟩, hr⟩, hs⟩ := by simpa using h
      exact .openArm hl hp hr hs
    · obtain ⟨⟨⟨hl, hp⟩, hr⟩, hw⟩ := by simpa using h
      exact .suspendDone hl hp hr hw
    · obtain ⟨hl, hp⟩ := by simpa using h
      exact .closeDone hl hp
    · obtain ⟨⟨⟨hl, hp⟩, hr⟩, hw⟩ := by simpa using h
      exact .resumeArm hl hp hr hw
    · obtain ⟨hc, hrest⟩ := by simpa using h
      exact .codec hc hrest
    · cases h
  · intro h
    cases h with
    | rest h => exact h
    | frame hl hp hr => simp [positionOk, hl, hp, hr]
    | keyout hl hp hr hs => simp [positionOk, hl, hp, hr, hs]
    | openArm hl hp hr hs => simp [positionOk, hl, hp, hr, hs]
    | suspendDone hl hp hr hw => simp [positionOk, hl, hp, hr, hw]
    | closeDone hl hp => simp [positionOk, hl, hp]
    | resumeArm hl hp hr hw => simp [positionOk, hl, hp, hr, hw]
    | @codec sel hc h =>
      cases sel with
      | word bs => simp [positionOk, hc, h]
      | phase p => cases p <;> simp_all [positionOk, codecSel]

theorem sound_iff (s : State) : Sound s ↔ CodecSound s ∧ Position s.pipe s.ports.seq := by
  rw [Sound, codecSound_iff, positionOk_iff, and_assoc]

/-- A selection of the codec's own decodes, and to an operation that keeps the boundary and cannot stop. -/
theorem codecSel_decodes {sel : Sel} (h : codecSel sel = true) :
    ∃ i, decodeSel sel = .ok i ∧ i ≠ .frame ∧ i ≠ .keyout ∧ i ≠ .round ∧ ∀ j, i ≠ .decbyte j := by
  cases sel with
  | word bs =>
    simp only [codecSel] at h
    split at h
    · next i hi =>
      have henc : encode i = .word bs := (decodeBytes_encodes hi).2
      have hne : ∀ p : Phase, i ≠ p.instr := by
        rintro p rfl
        rw [encode_phase] at henc
        cases henc
      exact ⟨i, hi, hne .frame, hne .keyout, hne .round, fun j => hne (.decbyte j)⟩
    · cases h
  | phase p => cases p <;> simp_all [codecSel, decodeSel, Phase.instr]

theorem codecSel_mask (b : Button) : codecSel (.word (bytesOfMask b.mask)) = true := by
  rw [codecSel, decodeBytes_bytesOfMask, decodeMask_mask]

/-! ### Where a position leads -/

theorem rearm_atRest {s : State} (hl : s.pipe.lock = .free) (hp : s.pipe.pstate = .streaming) :
    atRest (rearm s).pipe = true := by
  rw [atRest_iff]
  obtain hpipe | hpipe := rearm_pipe s <;> rw [hpipe]
  · exact ⟨hl, .inr (.inr ⟨hp, rfl⟩)⟩
  · exact ⟨hl, .inl ⟨rfl, rfl⟩⟩

theorem finishArm_atRest (s : State) : atRest (finishArm s).pipe = true := by
  rw [finishArm]
  split_ifs <;> rfl

/-- FRAME ends at rest (43_pipeline R214, R219). -/
theorem execFrame_position {s u : State} (hseq : s.ports.seq = []) (hl : s.pipe.lock = .free)
    (hp : s.pipe.pstate = .streaming) (h : execFrame s = .next u) : Position u.pipe u.ports.seq := by
  obtain ⟨hne, -⟩ | ⟨-, x, hx, rfl⟩ := execFrame_cases h
  · exact absurd hp hne
  · obtain ⟨hpipe, -, hxseq, -⟩ := hx.boundary
    rw [rearm_seq, hxseq, hseq]
    exact .rest (rearm_atRest (by rw [hpipe]; exact hl) (by rw [hpipe]; exact hp))

/-- KEYOUT leads to the arming, or ends the open at rest (43_pipeline R216, R224). -/
theorem execKeyout_position {s u : State} (hseq : s.ports.seq = [.openArm]) (hl : s.pipe.lock = .held)
    (hp : s.pipe.pstate = .opening) (hr : s.pipe.req = .none) (h : execKeyout s = .next u) :
    Position u.pipe u.ports.seq := by
  obtain ⟨log, rfl⟩ | ⟨-, rfl⟩ := execKeyout_next h
  · simp only [sendKey_pipe, sendKey_ports, hseq]
    exact .openArm hl hp hr rfl
  · exact .rest ((atRest_iff _).2 ⟨rfl, .inl ⟨rfl, hr⟩⟩)

/-- An event that finds the block at rest leads to rest, to its FRAME or into its program. -/
theorem EventRun.position {e : Event} {s u : State} (h : EventRun s e u) (hseq : s.ports.seq = [])
    (hrest : atRest s.pipe = true) : Position u.pipe u.ports.seq := by
  obtain ⟨hl, hstate⟩ := (atRest_iff _).1 hrest
  have accepted : acceptsCompletion s = true → s.pipe.pstate = .streaming ∧ s.pipe.req = .inFlight := by
    simp [acceptsCompletion]
  cases h with
  | ignored =>
    rw [hseq]
    exact .rest hrest
  | data bytes ha => exact .frame hl (accepted ha).1 rfl
  | timeout =>
    rw [raise, noteRaised_ports, hseq]
    exact .rest hrest
  | shutdown =>
    rw [raise, noteRaised_ports, closePipeline_ports, hseq]
    exact .rest ((atRest_iff _).2 ⟨hl, .inl ⟨rfl, rfl⟩⟩)
  | transient ha =>
    rw [raise, noteRaised_ports, noteRaised_pipe, rearm_seq, addLog_ports, hseq]
    exact .rest (rearm_atRest hl (accepted ha).1)
  | openBegins hp =>
    have hr : s.pipe.req = .none := by simpa [hp] using hstate
    exact .keyout rfl rfl hr rfl
  | openRefused hp =>
    have hr : s.pipe.req = .none := by simpa [hp] using hstate
    exact .rest ((atRest_iff _).2 ⟨rfl, .inl ⟨rfl, hr⟩⟩)
  | close =>
    rw [cancelRequest_pipe, cancelRequest_seq]
    exact .closeDone rfl rfl
  | suspend hp =>
    have hr : s.pipe.req = .inFlight := by simpa [hp] using hstate
    rw [cancelRequest_pipe, cancelRequest_seq]
    exact .suspendDone rfl hp hr rfl
  | suspendElsewhere =>
    rw [hseq]
    exact .rest ((atRest_iff _).2 ⟨hl, hstate⟩)
  | resume hp hw =>
    have hr : s.pipe.req = .none := by simpa [hp] using hstate
    exact .resumeArm rfl hp hr hw

theorem takeInput_position {s : State} (hseq : s.ports.seq = []) (hrest : atRest s.pipe = true) :
    Position (takeInput s).pipe (takeInput s).ports.seq := by
  obtain h | ⟨e, a, rest, -, h⟩ | ⟨b, rest, -, h⟩ := takeInput_cases s <;> rw [h]
  · rw [hseq]
    exact .rest hrest
  · exact (onEvent_run e (taking a rest s)).position hseq hrest
  · exact .codec (codecSel_mask b) hrest

/-- From every position a step answers a next state, which is at a position again. -/
theorem step_position {s : State} (hpos : Position s.pipe s.ports.seq) :
    ∃ u, step s = .next u ∧ Position u.pipe u.ports.seq := by
  generalize hseq : s.ports.seq = seq at hpos
  cases hpos with
  | rest hrest => exact ⟨_, step_input hseq, takeInput_position hseq hrest⟩
  | frame hl hp =>
    obtain ⟨u, hu⟩ := execFrame_total (advance [] s)
    exact ⟨u, (step_place hseq).trans hu, execFrame_position (s := advance [] s) rfl hl hp hu⟩
  | keyout hl hp hr => exact ⟨_, step_keyout hseq, execKeyout_position (s := advance [.openArm] s) rfl hl hp hr rfl⟩
  | openArm =>
    refine ⟨_, step_openArm hseq, ?_⟩
    rw [finishArm_seq]
    exact .rest (finishArm_atRest _)
  | suspendDone => exact ⟨_, step_suspendDone hseq, .rest rfl⟩
  | closeDone => exact ⟨_, step_closeDone hseq, .rest rfl⟩
  | resumeArm =>
    refine ⟨_, step_resumeArm hseq, ?_⟩
    rw [finishArm_seq]
    exact .rest (finishArm_atRest _)
  | codec hc hrest =>
    obtain ⟨i, hi, hf, hk, hr, hd⟩ := codecSel_decodes hc
    obtain ⟨u, hu⟩ := exec_total (advance [] s) hr hd
    obtain ⟨hpipe, -, huseq, -, -⟩ := exec_boundaryKept hu hf hk
    refine ⟨u, (step_selected hseq hi).trans hu, ?_⟩
    rw [hpipe, huseq]
    exact .rest hrest

/-! ### The invariant -/

/-- Settles O40: the literal state is evaluated. -/
theorem resetIsSound : Obligations.ResetIsSound := by
  unfold Obligations.ResetIsSound Sound
  decide

/-- Settles O39: the literal state is evaluated. -/
theorem resetLeavesTheBoundaryClosed : Obligations.ResetLeavesTheBoundaryClosed := by
  unfold Obligations.ResetLeavesTheBoundaryClosed
  decide

/-- Settles O43: every position answers a next state. -/
theorem soundStepAlwaysAnswersNext : Obligations.SoundStepAlwaysAnswersNext := by
  intro s hs
  obtain ⟨-, hpos⟩ := (sound_iff s).1 hs
  exact (step_position hpos).imp fun _ hu => hu.1

/-- Settles O42: the registers of the codec and the position are each kept. -/
theorem everyStepKeepsSound : Obligations.EveryStepKeepsSound := by
  intro s u hs h
  obtain ⟨hcodec, hpos⟩ := (sound_iff s).1 hs
  obtain ⟨u', hu', hpos'⟩ := step_position hpos
  obtain rfl := next_inj (h.symm.trans hu')
  exact (sound_iff u).2 ⟨step_sound hcodec h, hpos'⟩

/-! ### What a sound state cannot do -/

/-- Settles O58: LOCK is free at rest, and only there an input is taken. -/
theorem lifecycleTransitionsAreSerialized : Obligations.LifecycleTransitionsAreSerialized := by
  intro s u hs hlock h
  obtain ⟨-, hpos⟩ := (sound_iff s).1 hs
  obtain ⟨sel, rest, i, -, -, hx⟩ | ⟨p, rest, -, -, rfl⟩ | ⟨rest, -, rfl⟩ | ⟨rest, -, rfl⟩ | ⟨hseq, rfl⟩ := step_cases h
  · exact exec_inbox (s := advance rest s) hx
  · exact finishArm_inbox _
  · rfl
  · rfl
  · rw [hseq] at hpos
    cases hpos with
    | rest hrest =>
      obtain ⟨hfree, -⟩ := (atRest_iff _).1 hrest
      rw [hfree] at hlock
      cases hlock

/-- No event selects a FRAME for a suspended block. -/
theorem EventRun.suspended {e : Event} {s u : State} (h : EventRun s e u) (hseq : s.ports.seq = [])
    (hp : s.pipe.pstate = .suspended) :
    u.delivered = s.delivered ∧ ¬ ∃ rest, u.ports.seq = .op (.phase .frame) :: rest := by
  have rejects : ¬ acceptsCompletion s = true := by simp [acceptsCompletion, hp]
  cases h with
  | ignored => simp [hseq]
  | data _ ha => exact absurd ha rejects
  | timeout ha => exact absurd ha rejects
  | shutdown ha => exact absurd ha rejects
  | transient ha => exact absurd ha rejects
  | openBegins => simp
  | openRefused => simp [raise]
  | close => simp
  | suspend => simp
  | suspendElsewhere => simp [hseq]
  | resume => simp

theorem takeInput_suspended {s : State} (hseq : s.ports.seq = []) (hp : s.pipe.pstate = .suspended) :
    (takeInput s).delivered = s.delivered ∧ ¬ ∃ rest, (takeInput s).ports.seq = .op (.phase .frame) :: rest := by
  obtain h | ⟨e, a, rest, -, h⟩ | ⟨b, rest, -, h⟩ := takeInput_cases s <;> rw [h]
  · simp [hseq]
  · exact (onEvent_run e (taking a rest s)).suspended hseq hp
  · simp

/-- Settles O59: of the positions only rest, a resume and the codec's own are suspended, and none of them takes a delivery,
selects FRAME or accepts one. -/
theorem suspendedProcessesNoFrame : Obligations.SuspendedProcessesNoFrame := by
  intro s u hs hp h
  obtain ⟨-, hpos⟩ := (sound_iff s).1 hs
  have hquiet : AppendsNoUpdate s u := (step_outputs h).resolve_right fun ⟨_, ⟨hstreaming, _⟩, _⟩ => by
    rw [hp] at hstreaming
    cases hstreaming
  have noReq : atRest s.pipe = true → s.pipe.req = .none := fun hrest => by
    obtain ⟨-, hstate⟩ := (atRest_iff _).1 hrest
    simpa [hp] using hstate
  generalize hseq : s.ports.seq = seq at hpos
  cases hpos with
  | rest hrest =>
    obtain rfl := next_inj (h.symm.trans (step_input hseq))
    obtain ⟨hdelivered, hsel⟩ := takeInput_suspended hseq hp
    exact ⟨hdelivered, noReq hrest, hquiet, hsel⟩
  | frame _ hp' => simp [hp] at hp'
  | keyout _ hp' => simp [hp] at hp'
  | openArm _ hp' => simp [hp] at hp'
  | suspendDone _ hp' => simp [hp] at hp'
  | closeDone _ hp' => simp [hp] at hp'
  | resumeArm _ _ hr =>
    obtain rfl := next_inj (h.symm.trans (step_resumeArm hseq))
    exact ⟨finishArm_delivered _, hr, hquiet, by simp [finishArm_seq]⟩
  | codec hc hrest =>
    obtain ⟨i, hi, hf, hk, -, -⟩ := codecSel_decodes hc
    have hx : exec i (advance [] s) = .next u := (step_selected hseq hi).symm.trans h
    obtain ⟨-, hdelivered, huseq, -, -⟩ := exec_boundaryKept hx hf hk
    exact ⟨hdelivered, noReq hrest, hquiet, by simp [huseq]⟩

end Sys2Proof.Proofs
end
